-- ==== Sys2Proof/Word.lean ====
section
/-! DEFINITION. The word types of the CORE (spec/00_scope.md R6, R9) and the concatenation of two bytes. -/

namespace Sys2Proof

/-- `u8`: opcode, ALU operand, register A, X, Y, SP, memory byte (R6). -/
abbrev Byte := BitVec 8

/-- `u16`: the program counter and an address (R6). -/
abbrev Word := BitVec 16

/-- Wall-clock seconds (R264), kept exact. -/
abbrev Time := Rat

/-- A frequency in Hz (R35), kept exact (assumption log 10). -/
abbrev Hz := Rat

/-- `hi ++ lo`, with `hi` in the high bits (R9). -/
def joinBytes (hi lo : Byte) : Word := hi ++ lo

end Sys2Proof
end

