-- ==== Sys2Proof/Syntax.lean ====
section
/-! DEFINITION. The closed enumerations of the decoder (spec/30_encoding.md R94, R95) and the instructions: one constructor
a mnemonic of spec/opcode_table.json, ILLEGAL included. -/

namespace Sys2Proof

/-- The 13 addressing modes, in the order of R94. -/
inductive AddrMode where
  | accumulator | absolute | absoluteX | absoluteY | implicit | immediate | indirect
  | indexedIndirect | indirectIndexed | relative | zeroPage | zeroPageX | zeroPageY
  deriving DecidableEq, Repr, Inhabited

/-- The 56 mnemonics, in the alphabetical order of R95. -/
inductive Mnemonic where
  | adc | and | asl | bcc | bcs | beq | bit | bmi | bne | bpl | brk | bvc | bvs | clc | cld | cli | clv | cmp | cpx | cpy
  | dec | dex | dey | eor | inc | inx | iny | jmp | jsr | lda | ldx | ldy | lsr | nop | ora | pha | php | pla | plp | rol
  | ror | rti | rts | sbc | sec | sed | sei | sta | stx | sty | tax | tay | tsx | txa | txs | tya
  deriving DecidableEq, Repr, Inhabited

/-- What a decoded opcode byte is (R120, R126). A mnemonic with several rows of the opcode table carries the addressing
mode that tells them apart; one with a single row needs none; an illegal opcode carries its byte. -/
inductive Instr where
  | adc (m : AddrMode) | and (m : AddrMode) | asl (m : AddrMode)
  | bcc | bcs | beq
  | bit (m : AddrMode)
  | bmi | bne | bpl
  | brk
  | bvc | bvs
  | clc | cld | cli | clv
  | cmp (m : AddrMode) | cpx (m : AddrMode) | cpy (m : AddrMode)
  | dec (m : AddrMode)
  | dex | dey
  | eor (m : AddrMode)
  | inc (m : AddrMode)
  | inx | iny
  | jmp (m : AddrMode)
  | jsr
  | lda (m : AddrMode) | ldx (m : AddrMode) | ldy (m : AddrMode)
  | lsr (m : AddrMode)
  | nop
  | ora (m : AddrMode)
  | pha | php | pla | plp
  | rol (m : AddrMode) | ror (m : AddrMode)
  | rti | rts
  | sbc (m : AddrMode)
  | sec | sed | sei
  | sta (m : AddrMode) | stx (m : AddrMode) | sty (m : AddrMode)
  | tax | tay | tsx | txa | txs | tya
  | illegal (op : Byte)
  deriving DecidableEq, Repr, Inhabited

end Sys2Proof
end

