-- ==== Sys2Proof/WellFormed.lean ====
section
/-! DEFINITION. Which instructions exist: the addressing modes of each mnemonic with several rows (spec/40_decoder.md R130 to
R185, the lists "Operands") and the 105 illegal opcode values (spec/30_encoding.md R100). -/

namespace Sys2Proof

/-- The eight modes of ADC, AND, CMP, EOR, LDA, ORA and SBC. -/
def groupOneModes : List AddrMode :=
  [.immediate, .zeroPage, .zeroPageX, .absolute, .absoluteX, .absoluteY, .indexedIndirect, .indirectIndexed]

/-- The five modes of ASL, LSR, ROL and ROR. -/
def shiftModes : List AddrMode := [.zeroPage, .zeroPageX, .absolute, .absoluteX, .accumulator]

/-- The 41 illegal opcodes outside c = 3, as R100 lists them. -/
def illegalOutsideC3 : List Byte :=
  [0x02, 0x04, 0x0C, 0x12, 0x14, 0x1A, 0x1C, 0x22, 0x32, 0x34, 0x3A, 0x3C, 0x42, 0x44, 0x52, 0x54, 0x5A, 0x5C, 0x62, 0x64,
   0x72, 0x74, 0x7A, 0x7C, 0x80, 0x82, 0x89, 0x92, 0x9C, 0x9E, 0xB2, 0xC2, 0xD2, 0xD4, 0xDA, 0xDC, 0xE2, 0xF2, 0xF4, 0xFA,
   0xFC]

/-- The illegal opcode values: the 64 with c = 3, and 41 others (R100). -/
def isIllegalOpcode (op : Byte) : Bool := op.toNat % 4 == 3 || illegalOutsideC3.contains op

/-- The instruction is a row of the opcode table. -/
def Instr.wellFormed : Instr → Bool
  | .adc m | .and m | .cmp m | .eor m | .lda m | .ora m | .sbc m => groupOneModes.contains m
  | .asl m | .lsr m | .rol m | .ror m => shiftModes.contains m
  | .bit m => [AddrMode.zeroPage, .absolute].contains m
  | .cpx m | .cpy m => [AddrMode.immediate, .zeroPage, .absolute].contains m
  | .dec m | .inc m => [AddrMode.zeroPage, .zeroPageX, .absolute, .absoluteX].contains m
  | .jmp m => [AddrMode.absolute, .indirect].contains m
  | .ldx m => [AddrMode.immediate, .zeroPage, .zeroPageY, .absolute, .absoluteY].contains m
  | .ldy m => [AddrMode.immediate, .zeroPage, .zeroPageX, .absolute, .absoluteX].contains m
  | .sta m =>
    [AddrMode.zeroPage, .zeroPageX, .absolute, .absoluteX, .absoluteY, .indexedIndirect, .indirectIndexed].contains m
  | .stx m => [AddrMode.zeroPage, .zeroPageY, .absolute].contains m
  | .sty m => [AddrMode.zeroPage, .zeroPageX, .absolute].contains m
  | .illegal op => isIllegalOpcode op
  | .bcc | .bcs | .beq | .bmi | .bne | .bpl | .brk | .bvc | .bvs | .clc | .cld | .cli | .clv | .dex | .dey | .inx | .iny
  | .jsr | .nop | .pha | .php | .pla | .plp | .rti | .rts | .sec | .sed | .sei | .tax | .tay | .tsx | .txa | .txs
  | .tya => true

end Sys2Proof
end

