-- ==== Sys2Proof/Decode.lean ====
section
/-! DEFINITION. The opcode decoder (spec/40_decoder.md R120 to R126, spec/30_encoding.md R90 to R100), its output codes (R94, R95),
the instruction lengths (R92), and the encoder, written from the operand lists of R130 to R185. -/

namespace Sys2Proof

/-! ### Output codes -/

/-- `dec_mode`: the position of the mode in the list of R94. -/
def AddrMode.code : AddrMode → BitVec 4
  | .accumulator => 0 | .absolute => 1 | .absoluteX => 2 | .absoluteY => 3 | .implicit => 4 | .immediate => 5
  | .indirect => 6 | .indexedIndirect => 7 | .indirectIndexed => 8 | .relative => 9 | .zeroPage => 10 | .zeroPageX => 11
  | .zeroPageY => 12

/-- `dec_instr`: the alphabetical position of the mnemonic (R95). -/
def Mnemonic.code : Mnemonic → BitVec 6
  | .adc => 0 | .and => 1 | .asl => 2 | .bcc => 3 | .bcs => 4 | .beq => 5 | .bit => 6 | .bmi => 7 | .bne => 8 | .bpl
  => 9 | .brk => 10 | .bvc => 11 | .bvs => 12 | .clc => 13 | .cld => 14 | .cli => 15 | .clv => 16 | .cmp => 17 | .cpx
  => 18 | .cpy => 19 | .dec => 20 | .dex => 21 | .dey => 22 | .eor => 23 | .inc => 24 | .inx => 25 | .iny => 26 | .jmp
  => 27 | .jsr => 28 | .lda => 29 | .ldx => 30 | .ldy => 31 | .lsr => 32 | .nop => 33 | .ora => 34 | .pha => 35 | .php
  => 36 | .pla => 37 | .plp => 38 | .rol => 39 | .ror => 40 | .rti => 41 | .rts => 42 | .sbc => 43 | .sec => 44 | .sed
  => 45 | .sei => 46 | .sta => 47 | .stx => 48 | .sty => 49 | .tax => 50 | .tay => 51 | .tsx => 52 | .txa => 53 | .txs
  => 54 | .tya => 55

/-- How many operand bytes follow the opcode byte (R92; UNVERIFIED, assumption log 24). -/
def AddrMode.operandBytes : AddrMode → Nat
  | .accumulator | .implicit => 0
  | .immediate | .zeroPage | .zeroPageX | .zeroPageY | .relative | .indexedIndirect | .indirectIndexed => 1
  | .absolute | .absoluteX | .absoluteY | .indirect => 2

/-- The total length of an instruction in bytes (R92). No rule of the CORE reads it. -/
def AddrMode.length (m : AddrMode) : Nat := 1 + m.operandBytes

/-! ### The opcode map -/

/-- One row of the map of R96: the sixteen cells whose opcodes have the high nibble `hi`; `none` is an illegal cell. -/
def opcodeMapRow : Nat → List (Option (Mnemonic × AddrMode))
  | 0 => [some (.brk, .implicit), some (.ora, .indexedIndirect), none, none, none, some (.ora, .zeroPage),
      some (.asl, .zeroPage), none, some (.php, .implicit), some (.ora, .immediate), some (.asl, .accumulator), none,
      none, some (.ora, .absolute), some (.asl, .absolute), none]
  | 1 => [some (.bpl, .relative), some (.ora, .indirectIndexed), none, none, none, some (.ora, .zeroPageX),
      some (.asl, .zeroPageX), none, some (.clc, .implicit), some (.ora, .absoluteY), none, none, none,
      some (.ora, .absoluteX), some (.asl, .absoluteX), none]
  | 2 => [some (.jsr, .absolute), some (.and, .indexedIndirect), none, none, some (.bit, .zeroPage),
      some (.and, .zeroPage), some (.rol, .zeroPage), none, some (.plp, .implicit), some (.and, .immediate),
      some (.rol, .accumulator), none, some (.bit, .absolute), some (.and, .absolute), some (.rol, .absolute), none]
  | 3 => [some (.bmi, .relative), some (.and, .indirectIndexed), none, none, none, some (.and, .zeroPageX),
      some (.rol, .zeroPageX), none, some (.sec, .implicit), some (.and, .absoluteY), none, none, none,
      some (.and, .absoluteX), some (.rol, .absoluteX), none]
  | 4 => [some (.rti, .implicit), some (.eor, .indexedIndirect), none, none, none, some (.eor, .zeroPage),
      some (.lsr, .zeroPage), none, some (.pha, .implicit), some (.eor, .immediate), some (.lsr, .accumulator), none,
      some (.jmp, .absolute), some (.eor, .absolute), some (.lsr, .absolute), none]
  | 5 => [some (.bvc, .relative), some (.eor, .indirectIndexed), none, none, none, some (.eor, .zeroPageX),
      some (.lsr, .zeroPageX), none, some (.cli, .implicit), some (.eor, .absoluteY), none, none, none,
      some (.eor, .absoluteX), some (.lsr, .absoluteX), none]
  | 6 => [some (.rts, .implicit), some (.adc, .indexedIndirect), none, none, none, some (.adc, .zeroPage),
      some (.ror, .zeroPage), none, some (.pla, .implicit), some (.adc, .immediate), some (.ror, .accumulator), none,
      some (.jmp, .indirect), some (.adc, .absolute), some (.ror, .absolute), none]
  | 7 => [some (.bvs, .relative), some (.adc, .indirectIndexed), none, none, none, some (.adc, .zeroPageX),
      some (.ror, .zeroPageX), none, some (.sei, .implicit), some (.adc, .absoluteY), none, none, none,
      some (.adc, .absoluteX), some (.ror, .absoluteX), none]
  | 8 => [none, some (.sta, .indexedIndirect), none, none, some (.sty, .zeroPage), some (.sta, .zeroPage),
      some (.stx, .zeroPage), none, some (.dey, .implicit), none, some (.txa, .implicit), none, some (.sty, .absolute),
      some (.sta, .absolute), some (.stx, .absolute), none]
  | 9 => [some (.bcc, .relative), some (.sta, .indirectIndexed), none, none, some (.sty, .zeroPageX),
      some (.sta, .zeroPageX), some (.stx, .zeroPageY), none, some (.tya, .implicit), some (.sta, .absoluteY),
      some (.txs, .implicit), none, none, some (.sta, .absoluteX), none, none]
  | 10 => [some (.ldy, .immediate), some (.lda, .indexedIndirect), some (.ldx, .immediate), none, some (.ldy, .zeroPage),
      some (.lda, .zeroPage), some (.ldx, .zeroPage), none, some (.tay, .implicit), some (.lda, .immediate),
      some (.tax, .implicit), none, some (.ldy, .absolute), some (.lda, .absolute), some (.ldx, .absolute), none]
  | 11 => [some (.bcs, .relative), some (.lda, .indirectIndexed), none, none, some (.ldy, .zeroPageX),
      some (.lda, .zeroPageX), some (.ldx, .zeroPageY), none, some (.clv, .implicit), some (.lda, .absoluteY),
      some (.tsx, .implicit), none, some (.ldy, .absoluteX), some (.lda, .absoluteX), some (.ldx, .absoluteY), none]
  | 12 => [some (.cpy, .immediate), some (.cmp, .indexedIndirect), none, none, some (.cpy, .zeroPage),
      some (.cmp, .zeroPage), some (.dec, .zeroPage), none, some (.iny, .implicit), some (.cmp, .immediate),
      some (.dex, .implicit), none, some (.cpy, .absolute), some (.cmp, .absolute), some (.dec, .absolute), none]
  | 13 => [some (.bne, .relative), some (.cmp, .indirectIndexed), none, none, none, some (.cmp, .zeroPageX),
      some (.dec, .zeroPageX), none, some (.cld, .implicit), some (.cmp, .absoluteY), none, none, none,
      some (.cmp, .absoluteX), some (.dec, .absoluteX), none]
  | 14 => [some (.cpx, .immediate), some (.sbc, .indexedIndirect), none, none, some (.cpx, .zeroPage),
      some (.sbc, .zeroPage), some (.inc, .zeroPage), none, some (.inx, .implicit), some (.sbc, .immediate),
      some (.nop, .implicit), none, some (.cpx, .absolute), some (.sbc, .absolute), some (.inc, .absolute), none]
  | 15 => [some (.beq, .relative), some (.sbc, .indirectIndexed), none, none, none, some (.sbc, .zeroPageX),
      some (.inc, .zeroPageX), none, some (.sed, .implicit), some (.sbc, .absoluteY), none, none, none,
      some (.sbc, .absoluteX), some (.inc, .absoluteX), none]
  | _ => []

/-- The decoder (R120): the cell of the opcode map, `none` when it is illegal (R126). -/
def decodeByte (op : Byte) : Option (Mnemonic × AddrMode) :=
  ((opcodeMapRow (op.toNat / 16))[op.toNat % 16]?).join

/-- `decode_addressing` (R121). -/
def decodeAddressing (op : Byte) : Option AddrMode := (decodeByte op).map Prod.snd

/-- `decode_instruction` (R122). -/
def decodeInstruction (op : Byte) : Option Mnemonic := (decodeByte op).map Prod.fst

/-- The signal `dec_valid` (R120). -/
def decValid (op : Byte) : Bool := (decodeByte op).isSome

/-- The signal `dec_instr` (R120): 0 when the opcode is illegal. -/
def decInstr (op : Byte) : BitVec 6 := ((decodeInstruction op).map Mnemonic.code).getD 0

/-- The signal `dec_mode` (R120): 0 when the opcode is illegal. -/
def decMode (op : Byte) : BitVec 4 := ((decodeAddressing op).map AddrMode.code).getD 0

/-! ### The field-decomposition form (R90, R98, R99, R125) -/

/-- `a = op[7:5]` (R90). -/
def fieldA (op : Byte) : BitVec 3 := op.extractLsb' 5 3

/-- `b = op[4:2]` (R90). -/
def fieldB (op : Byte) : BitVec 3 := op.extractLsb' 2 3

/-- `c = op[1:0]` (R90). -/
def fieldC (op : Byte) : BitVec 2 := op.extractLsb' 0 2

/-- The addressing mode as R98 selects it: by (b, c), with the exceptions in a. -/
def modeOfFields (a b c : Nat) : Option AddrMode :=
  match c, b with
  | 1, 0 => some .indexedIndirect
  | 1, 1 => some .zeroPage
  | 1, 2 => if a = 4 then none else some .immediate
  | 1, 3 => some .absolute
  | 1, 4 => some .indirectIndexed
  | 1, 5 => some .zeroPageX
  | 1, 6 => some .absoluteY
  | 1, 7 => some .absoluteX
  | 2, 0 => if a = 5 then some .immediate else none
  | 2, 1 => some .zeroPage
  | 2, 2 => if a < 4 then some .accumulator else some .implicit
  | 2, 3 => some .absolute
  | 2, 5 => if a = 4 ∨ a = 5 then some .zeroPageY else some .zeroPageX
  | 2, 6 => if a = 4 ∨ a = 5 then some .implicit else none
  | 2, 7 => if a = 4 then none else if a = 5 then some .absoluteY else some .absoluteX
  | 0, 0 => if a = 4 then none else if a = 1 then some .absolute else if a < 4 then some .implicit else some .immediate
  | 0, 1 => if a = 0 ∨ a = 2 ∨ a = 3 then none else some .zeroPage
  | 0, 2 => some .implicit
  | 0, 3 => if a = 0 then none else if a = 3 then some .indirect else some .absolute
  | 0, 4 => some .relative
  | 0, 5 => if a = 4 ∨ a = 5 then some .zeroPageX else none
  | 0, 6 => some .implicit
  | 0, 7 => if a = 5 then some .absoluteX else none
  | _, _ => none

/-- The instruction as R99 selects it: by (c, a), with the exceptions in b. -/
def mnemonicOfFields (a b c : Nat) : Option Mnemonic :=
  match c with
  | 1 => if a = 4 ∧ b = 2 then none else [Mnemonic.ora, .and, .eor, .adc, .sta, .lda, .cmp, .sbc][a]?
  | 2 =>
    let column := [Mnemonic.asl, .rol, .lsr, .ror, .stx, .ldx, .dec, .inc][a]?
    match b with
    | 0 => if a = 5 then column else none
    | 2 => if a < 4 then column else [Mnemonic.txa, .tax, .dex, .nop][a - 4]?
    | 4 => none
    | 6 => if a = 4 then some .txs else if a = 5 then some .tsx else none
    | 7 => if a = 4 then none else column
    | _ => column
  | 0 =>
    let column := ([none, some Mnemonic.bit, some .jmp, some .jmp, some .sty, some .ldy, some .cpy, some .cpx][a]?).join
    match b with
    | 0 => ([some Mnemonic.brk, some .jsr, some .rti, some .rts, none, some .ldy, some .cpy, some .cpx][a]?).join
    | 1 => if a = 2 ∨ a = 3 then none else column
    | 2 => [Mnemonic.php, .plp, .pha, .pla, .dey, .tay, .iny, .inx][a]?
    | 4 => [Mnemonic.bpl, .bmi, .bvc, .bvs, .bcc, .bcs, .bne, .beq][a]?
    | 5 => if a = 4 ∨ a = 5 then column else none
    | 6 => [Mnemonic.clc, .sec, .cli, .sei, .tya, .clv, .cld, .sed][a]?
    | 7 => if a = 5 then column else none
    | _ => column
  | _ => none

/-- The mode half of the field-decomposition decoder (R125). -/
def fieldAddressing (op : Byte) : Option AddrMode :=
  modeOfFields (fieldA op).toNat (fieldB op).toNat (fieldC op).toNat

/-- The instruction half of the field-decomposition decoder (R125). -/
def fieldInstruction (op : Byte) : Option Mnemonic :=
  mnemonicOfFields (fieldA op).toNat (fieldB op).toNat (fieldC op).toNat

/-! ### Instructions and their bytes -/

/-- The mnemonic and mode of an instruction; `none` for an illegal opcode. -/
def Instr.form : Instr → Option (Mnemonic × AddrMode)
  | .adc m => some (.adc, m)
  | .and m => some (.and, m)
  | .asl m => some (.asl, m)
  | .bit m => some (.bit, m)
  | .cmp m => some (.cmp, m)
  | .cpx m => some (.cpx, m)
  | .cpy m => some (.cpy, m)
  | .dec m => some (.dec, m)
  | .eor m => some (.eor, m)
  | .inc m => some (.inc, m)
  | .jmp m => some (.jmp, m)
  | .lda m => some (.lda, m)
  | .ldx m => some (.ldx, m)
  | .ldy m => some (.ldy, m)
  | .lsr m => some (.lsr, m)
  | .ora m => some (.ora, m)
  | .rol m => some (.rol, m)
  | .ror m => some (.ror, m)
  | .sbc m => some (.sbc, m)
  | .sta m => some (.sta, m)
  | .stx m => some (.stx, m)
  | .sty m => some (.sty, m)
  | .bcc => some (.bcc, .relative)
  | .bcs => some (.bcs, .relative)
  | .beq => some (.beq, .relative)
  | .bmi => some (.bmi, .relative)
  | .bne => some (.bne, .relative)
  | .bpl => some (.bpl, .relative)
  | .brk => some (.brk, .implicit)
  | .bvc => some (.bvc, .relative)
  | .bvs => some (.bvs, .relative)
  | .clc => some (.clc, .implicit)
  | .cld => some (.cld, .implicit)
  | .cli => some (.cli, .implicit)
  | .clv => some (.clv, .implicit)
  | .dex => some (.dex, .implicit)
  | .dey => some (.dey, .implicit)
  | .inx => some (.inx, .implicit)
  | .iny => some (.iny, .implicit)
  | .jsr => some (.jsr, .absolute)
  | .nop => some (.nop, .implicit)
  | .pha => some (.pha, .implicit)
  | .php => some (.php, .implicit)
  | .pla => some (.pla, .implicit)
  | .plp => some (.plp, .implicit)
  | .rti => some (.rti, .implicit)
  | .rts => some (.rts, .implicit)
  | .sec => some (.sec, .implicit)
  | .sed => some (.sed, .implicit)
  | .sei => some (.sei, .implicit)
  | .tax => some (.tax, .implicit)
  | .tay => some (.tay, .implicit)
  | .tsx => some (.tsx, .implicit)
  | .txa => some (.txa, .implicit)
  | .txs => some (.txs, .implicit)
  | .tya => some (.tya, .implicit)
  | .illegal _ => none

/-- The instruction that a decoded pair stands for. -/
def Instr.ofForm (k : Mnemonic) (m : AddrMode) : Instr :=
  match k with
  | .adc => .adc m
  | .and => .and m
  | .asl => .asl m
  | .bit => .bit m
  | .cmp => .cmp m
  | .cpx => .cpx m
  | .cpy => .cpy m
  | .dec => .dec m
  | .eor => .eor m
  | .inc => .inc m
  | .jmp => .jmp m
  | .lda => .lda m
  | .ldx => .ldx m
  | .ldy => .ldy m
  | .lsr => .lsr m
  | .ora => .ora m
  | .rol => .rol m
  | .ror => .ror m
  | .sbc => .sbc m
  | .sta => .sta m
  | .stx => .stx m
  | .sty => .sty m
  | .bcc => .bcc
  | .bcs => .bcs
  | .beq => .beq
  | .bmi => .bmi
  | .bne => .bne
  | .bpl => .bpl
  | .brk => .brk
  | .bvc => .bvc
  | .bvs => .bvs
  | .clc => .clc
  | .cld => .cld
  | .cli => .cli
  | .clv => .clv
  | .dex => .dex
  | .dey => .dey
  | .inx => .inx
  | .iny => .iny
  | .jsr => .jsr
  | .nop => .nop
  | .pha => .pha
  | .php => .php
  | .pla => .pla
  | .plp => .plp
  | .rti => .rti
  | .rts => .rts
  | .sec => .sec
  | .sed => .sed
  | .sei => .sei
  | .tax => .tax
  | .tay => .tay
  | .tsx => .tsx
  | .txa => .txa
  | .txs => .txs
  | .tya => .tya

/-- What an opcode byte decodes to, an illegal one included (R120, R126). -/
def decodeInstr (op : Byte) : Instr :=
  match decodeByte op with
  | some (k, m) => .ofForm k m
  | none => .illegal op

/-- Decoding a stream of bytes reads the opcode byte and nothing else (R91). -/
def decode : List Byte → Option (Instr × List Byte)
  | [] => none
  | op :: rest => some (decodeInstr op, rest)

/-- The operand lists of R130 to R185: the opcode byte of every mode of a mnemonic. -/
def Mnemonic.forms : Mnemonic → List (AddrMode × Byte)
  | .adc => [(.immediate, 0x69), (.zeroPage, 0x65), (.zeroPageX, 0x75), (.absolute, 0x6D), (.absoluteX, 0x7D),
      (.absoluteY, 0x79), (.indexedIndirect, 0x61), (.indirectIndexed, 0x71)]
  | .and => [(.immediate, 0x29), (.zeroPage, 0x25), (.zeroPageX, 0x35), (.absolute, 0x2D), (.absoluteX, 0x3D),
      (.absoluteY, 0x39), (.indexedIndirect, 0x21), (.indirectIndexed, 0x31)]
  | .asl => [(.zeroPage, 0x06), (.zeroPageX, 0x16), (.absolute, 0x0E), (.absoluteX, 0x1E), (.accumulator, 0x0A)]
  | .bcc => [(.relative, 0x90)]
  | .bcs => [(.relative, 0xB0)]
  | .beq => [(.relative, 0xF0)]
  | .bit => [(.zeroPage, 0x24), (.absolute, 0x2C)]
  | .bmi => [(.relative, 0x30)]
  | .bne => [(.relative, 0xD0)]
  | .bpl => [(.relative, 0x10)]
  | .brk => [(.implicit, 0x00)]
  | .bvc => [(.relative, 0x50)]
  | .bvs => [(.relative, 0x70)]
  | .clc => [(.implicit, 0x18)]
  | .cld => [(.implicit, 0xD8)]
  | .cli => [(.implicit, 0x58)]
  | .clv => [(.implicit, 0xB8)]
  | .cmp => [(.immediate, 0xC9), (.zeroPage, 0xC5), (.zeroPageX, 0xD5), (.absolute, 0xCD), (.absoluteX, 0xDD),
      (.absoluteY, 0xD9), (.indexedIndirect, 0xC1), (.indirectIndexed, 0xD1)]
  | .cpx => [(.immediate, 0xE0), (.zeroPage, 0xE4), (.absolute, 0xEC)]
  | .cpy => [(.immediate, 0xC0), (.zeroPage, 0xC4), (.absolute, 0xCC)]
  | .dec => [(.zeroPage, 0xC6), (.zeroPageX, 0xD6), (.absolute, 0xCE), (.absoluteX, 0xDE)]
  | .dex => [(.implicit, 0xCA)]
  | .dey => [(.implicit, 0x88)]
  | .eor => [(.immediate, 0x49), (.zeroPage, 0x45), (.zeroPageX, 0x55), (.absolute, 0x4D), (.absoluteX, 0x5D),
      (.absoluteY, 0x59), (.indexedIndirect, 0x41), (.indirectIndexed, 0x51)]
  | .inc => [(.zeroPage, 0xE6), (.zeroPageX, 0xF6), (.absolute, 0xEE), (.absoluteX, 0xFE)]
  | .inx => [(.implicit, 0xE8)]
  | .iny => [(.implicit, 0xC8)]
  | .jmp => [(.absolute, 0x4C), (.indirect, 0x6C)]
  | .jsr => [(.absolute, 0x20)]
  | .lda => [(.immediate, 0xA9), (.zeroPage, 0xA5), (.zeroPageX, 0xB5), (.absolute, 0xAD), (.absoluteX, 0xBD),
      (.absoluteY, 0xB9), (.indexedIndirect, 0xA1), (.indirectIndexed, 0xB1)]
  | .ldx => [(.immediate, 0xA2), (.zeroPage, 0xA6), (.zeroPageY, 0xB6), (.absolute, 0xAE), (.absoluteY, 0xBE)]
  | .ldy => [(.immediate, 0xA0), (.zeroPage, 0xA4), (.zeroPageX, 0xB4), (.absolute, 0xAC), (.absoluteX, 0xBC)]
  | .lsr => [(.zeroPage, 0x46), (.zeroPageX, 0x56), (.absolute, 0x4E), (.absoluteX, 0x5E), (.accumulator, 0x4A)]
  | .nop => [(.implicit, 0xEA)]
  | .ora => [(.immediate, 0x09), (.zeroPage, 0x05), (.zeroPageX, 0x15), (.absolute, 0x0D), (.absoluteX, 0x1D),
      (.absoluteY, 0x19), (.indexedIndirect, 0x01), (.indirectIndexed, 0x11)]
  | .pha => [(.implicit, 0x48)]
  | .php => [(.implicit, 0x08)]
  | .pla => [(.implicit, 0x68)]
  | .plp => [(.implicit, 0x28)]
  | .rol => [(.zeroPage, 0x26), (.zeroPageX, 0x36), (.absolute, 0x2E), (.absoluteX, 0x3E), (.accumulator, 0x2A)]
  | .ror => [(.zeroPage, 0x66), (.zeroPageX, 0x76), (.absolute, 0x6E), (.absoluteX, 0x7E), (.accumulator, 0x6A)]
  | .rti => [(.implicit, 0x40)]
  | .rts => [(.implicit, 0x60)]
  | .sbc => [(.immediate, 0xE9), (.zeroPage, 0xE5), (.zeroPageX, 0xF5), (.absolute, 0xED), (.absoluteX, 0xFD),
      (.absoluteY, 0xF9), (.indexedIndirect, 0xE1), (.indirectIndexed, 0xF1)]
  | .sec => [(.implicit, 0x38)]
  | .sed => [(.implicit, 0xF8)]
  | .sei => [(.implicit, 0x78)]
  | .sta => [(.zeroPage, 0x85), (.zeroPageX, 0x95), (.absolute, 0x8D), (.absoluteX, 0x9D), (.absoluteY, 0x99),
      (.indexedIndirect, 0x81), (.indirectIndexed, 0x91)]
  | .stx => [(.zeroPage, 0x86), (.zeroPageY, 0x96), (.absolute, 0x8E)]
  | .sty => [(.zeroPage, 0x84), (.zeroPageX, 0x94), (.absolute, 0x8C)]
  | .tax => [(.implicit, 0xAA)]
  | .tay => [(.implicit, 0xA8)]
  | .tsx => [(.implicit, 0xBA)]
  | .txa => [(.implicit, 0x8A)]
  | .txs => [(.implicit, 0x9A)]
  | .tya => [(.implicit, 0x98)]

/-- The byte of a mnemonic in a mode, by the operand lists of R130 to R185. -/
def opcodeOf (k : Mnemonic) (m : AddrMode) : Option Byte := k.forms.lookup m

/-- The encoder: the opcode byte of an instruction, `none` where the opcode table has no such row. -/
def encode (i : Instr) : Option Byte :=
  match i with
  | .illegal op => if isIllegalOpcode op then some op else none
  | i => i.form.bind fun f => opcodeOf f.1 f.2

/-- The bytes of an instruction word of `nbits` bits, the first byte from the low bits: one byte for a row of the opcode
table, never more than the three bytes of the longest instruction (R92). -/
def instrBytes (nbits w : Nat) : List Byte :=
  let v := w % 2 ^ nbits
  [BitVec.ofNat 8 v, BitVec.ofNat 8 (v / 256), BitVec.ofNat 8 (v / 65536)].take (max 1 ((nbits + 7) / 8))

/-- The instruction the decoder reads from a word numbered as spec/opcode_table.json numbers it. -/
def decodeTableWord (nbits w : Nat) : Option Instr := (decode (instrBytes nbits w)).map Prod.fst

end Sys2Proof
end

