-- ==== Sys2Proof/Machine/Interface.lean ====
section
/-! DEFINITION. The types of the CORE's boundary: the status register, the sequencer's states, the register port's requests, the
moves of the agents around the CORE and what a move is answered (spec/10_state.md, 43_sequencer.md, 60_exceptions.md R310). -/

namespace Sys2Proof.Machine

/-- The status register: seven independent flags (R25). The expansion position holds no state (conflict C1). -/
structure SR where
  n : Bool
  v : Bool
  b : Bool
  d : Bool
  i : Bool
  z : Bool
  c : Bool
  deriving DecidableEq, Repr, Inhabited

/-- The names of the seven flags (R25). -/
inductive Flag where
  | n | v | b | d | i | z | c
  deriving DecidableEq, Repr, Inhabited

/-- The 8-bit registers other than SR (R20). -/
inductive Reg8 where
  | a | x | y | sp
  deriving DecidableEq, Repr, Inhabited

/-- The next reset read: Resetting(1) to Resetting(7) of R32. Read 7 carries the vector's low byte that read 6 got (R257). -/
inductive ResetRead where
  | fetch1 | fetch2            -- R255
  | stack1 | stack2 | stack3   -- R256
  | vectorLow                  -- R257, read 6
  | vectorHigh (lo : Byte)     -- R257, read 7
  deriving DecidableEq, Repr, Inhabited

/-- The sequencer state (R32). -/
inductive Phase where
  | idle
  | resetting (k : ResetRead)
  | running
  | terminated
  deriving DecidableEq, Repr, Inhabited

/-- The last measurement point: `mark_time` and `mark_cycles` (R35), always set together (R258, R264). -/
structure Mark where
  time : Time
  cycles : Nat
  deriving DecidableEq, Repr

/-- One read on the bus: `bus_rd` with `bus_addr` and `bus_data` (R250). -/
structure BusRead where
  addr : Word
  data : Byte
  deriving DecidableEq, Repr

/-- A request on the register port (R29 to R31). -/
inductive PortRequest where
  | readReg (r : Reg8)
  | readPC
  | readSR
  | readSRByte
  | readFlag (f : Flag)
  | writeReg (r : Reg8) (v : Byte)
  | writePC (v : Word)
  | writeSR (v : SR)
  | writeSRByte (v : Byte)
  | writeFlag (f : Flag) (v : Bool)
  deriving DecidableEq, Repr, Inhabited

/-- One move of one agent (R269, R310). -/
inductive Event where
  /-- The CPU loop's turn: were it to poll, `pulse` is the answer (R251), and `now` is the wall clock's reading (R264). -/
  | turn (pulse : Bool) (now : Time)
  /-- The host's `start()` (R254). -/
  | start
  /-- The host's `terminate()` (R263). -/
  | terminate
  /-- The host's `frequency()` (R266). -/
  | frequency
  /-- The dispatcher's use of the register port (R29). -/
  | port (r : PortRequest)
  /-- The dispatcher's drive of the ALU inputs (R200). -/
  | alu (op : BitVec 4) (a b : Byte)
  /-- `MemRead(addr, 1)` by the dispatcher (R60). -/
  | memRead (addr : Word)
  /-- `MemWrite(addr, 1, v)` by the dispatcher (R61). -/
  | memWrite (addr : Word) (v : Byte)
  deriving DecidableEq, Repr, Inhabited

/-- What a move is answered: a port read's value, the ALU's result, a memory read's byte, `MemWrite`'s Boolean, the
frequency. -/
inductive Reply where
  | byte (v : Byte)
  | word (v : Word)
  | flags (v : SR)
  | bit (v : Bool)
  | accepted (ok : Bool)
  | hz (f : Hz)
  deriving DecidableEq, Repr

end Sys2Proof.Machine
end

