-- ==== Sys2Proof/Config.lean ====
section
/-! DEFINITION. The named parameters of spec/00_scope.md R7 with their values for this hardware, and the free values: constants with
no body, of which nothing can be proved. The machine takes the window and the vectors as `Params`, which together with the other
launch parameters (MEM0, RO_MASKS, SP_POWER_ON, PC at power-on) stand in Machine/State.lean's `Launch`. -/

namespace Sys2Proof.Config

/-- `FREQ_WINDOW` for this hardware (R7). -/
def freqWindow : Nat := 100

/-- `NMI_VEC` for this hardware (R64; UNVERIFIED, assumption log 14). -/
def nmiVec : Word := 0xFFFA

/-- `RESET_VEC` for this hardware (R64; UNVERIFIED, assumption log 14). -/
def resetVec : Word := 0xFFFC

/-- `IRQ_VEC` for this hardware (R64; UNVERIFIED, assumption log 14). -/
def irqVec : Word := 0xFFFE

/-- The parameters that the model takes as an argument (R7; B20 of 93_implementation_defined.md). -/
structure Params where
  /-- `FREQ_WINDOW`, a positive natural: `State.Inv` holds that it is positive. -/
  freqWindow : Nat
  /-- `RESET_VEC`. -/
  resetVec : Word
  /-- `NMI_VEC`. The CORE never reads it. -/
  nmiVec : Word
  /-- `IRQ_VEC`. The CORE never reads it. -/
  irqVec : Word
  deriving DecidableEq, Repr

/-- The values for this hardware (R7). -/
def defaultParams : Params := { freqWindow := freqWindow, resetVec := resetVec, nmiVec := nmiVec, irqVec := irqVec }

/-- The three vectors, each occupying its address and the next one (R64). -/
def Params.vectors (p : Params) : List Word := [p.nmiVec, p.resetVec, p.irqVec]

/-- `STACK_PAGE` (R63). -/
def stackPage : Word := 0x0100

/-- The default `RO_MASKS` (R65). -/
def defaultRoMasks : List Word := [0xFFFA, 0xFFFC]

/-- `freq` when no time has elapsed (R264, R265: "any value"), applied to `State.env.draws`. -/
opaque freeHz : Nat → Hz

/-- The offset in the stack page of a reset read when SP holds no value (R256), applied to `State.env.draws`. -/
opaque freeByte : Nat → Byte

/-- The agents' next move when none is queued (R251, R269), applied to `State.env.draws`. -/
opaque freeEvent : Nat → Machine.Event

end Sys2Proof.Config
end

