-- ==== Sys2Proof/Machine/Memory.lean ====
section
/-! DEFINITION. The memory collaborator (spec/20_memory.md R60 to R62): 65536 bytes as a list of (address, byte) pairs in one
canonical form, a total read, and the write that read-only masks reject. -/

namespace Sys2Proof.Machine

/-- Memory contents: the bytes that differ from `unlistedByte`, by rising address. -/
abbrev Mem := List Host.Cell

/-- What an address not in the list reads as (DESIGN CHOICE, assumption log 4). -/
def unlistedByte : Byte := 0

/-- The byte at address `a`. -/
def Mem.readAt : Mem → Nat → Byte
  | [], _ => unlistedByte
  | (k, v) :: rest, a => if k = a then v else Mem.readAt rest a

/-- `MemRead(addr, 1)` (R60): total, and no side effect. -/
def Mem.read (m : Mem) (a : Word) : Byte := m.readAt a.toNat

/-- Puts byte `v` at address `a` and keeps the canonical form. -/
def Mem.setAt : Mem → Nat → Byte → Mem
  | [], a, v => if v = unlistedByte then [] else [(a, v)]
  | (k, w) :: rest, a, v =>
    if k = a then (if v = unlistedByte then rest else (a, v) :: rest)
    else if a < k then (if v = unlistedByte then (k, w) :: rest else (a, v) :: (k, w) :: rest)
    else (k, w) :: Mem.setAt rest a v

/-- `mem[addr] <- v` (R61), without regard to the masks. -/
def Mem.set (m : Mem) (a : Word) (v : Byte) : Mem := m.setAt a.toNat v

/-- The bytes laid out from address `a` upwards, wrapping at the top of the address space. -/
def Mem.place (m : Mem) (a : Word) : List Byte → Mem
  | [] => m
  | v :: rest => Mem.place (m.set a v) (a + 1) rest

/-- Every key from `lo` on is in the address space, keys strictly rise, and no entry holds `unlistedByte`. -/
def Mem.wfFrom : Nat → Mem → Bool
  | _, [] => true
  | lo, (k, v) :: rest => decide (lo ≤ k) && decide (k < 65536) && decide (v ≠ unlistedByte) && Mem.wfFrom (k + 1) rest

/-- The canonical form. -/
def Mem.wf (m : Mem) : Bool := Mem.wfFrom 0 m

/-- `ro(addr)` (R62): some mask has all its bits set in the address. -/
def isReadOnly (masks : List Word) (a : Word) : Bool := masks.any fun m => a &&& m == m

end Sys2Proof.Machine
end

