-- ==== Sys2Proof/Machine/State.lean ====
section
/-! DEFINITION. The state of the CORE and of its memory collaborator (spec/10_state.md, spec/20_memory.md), its values at
construction and after reset (spec/70_reset_and_hazards.md R330), and the reasons a step can stop. -/

namespace Sys2Proof.Machine

/-- The model's own fields: what stands between the CORE and the agents around it. -/
structure Env where
  /-- The agents' moves to come, next first; when empty the next move is `Config.freeEvent` (assumption log 2). -/
  inputs : List Event
  /-- The latest reading of the wall clock, in seconds (R264; assumption log 11). -/
  clock : Time
  /-- How many free values have been drawn (assumption log 9). -/
  draws : Nat
  /-- The read strobe of the last step (R250); `none` is no read. -/
  bus : Option BusRead
  /-- What the last move was answered (assumption log 19). -/
  reply : Option Reply
  deriving DecidableEq, Repr

/-- Everything the spec gives the machine. -/
structure State where
  /-- The program counter (R24). -/
  pc : Word
  /-- The accumulator, or no value (R21, R41). -/
  a : Option Byte
  /-- Index register X, or no value (R22, R41). -/
  x : Option Byte
  /-- Index register Y, or no value (R22, R41). -/
  y : Option Byte
  /-- The stack pointer, or no value (R23, R40). -/
  sp : Option Byte
  /-- The status register (R25). -/
  sr : SR
  /-- The sequencer state (R32). -/
  phase : Phase
  /-- The present iteration has passed its termination check and waits for a pulse (R32, R262; assumption log 12). -/
  inWait : Bool
  /-- The sticky termination flag (R33). -/
  term : Bool
  /-- The cycle counter (R34). -/
  cycles : Nat
  /-- The frequency estimate (R35). -/
  freq : Hz
  /-- `mark_time` and `mark_cycles`, or unset (R35, R42). -/
  mark : Option Mark
  /-- The byte of the last Running iteration, or no value (R36). -/
  fetched : Option Byte
  /-- The memory collaborator's contents (R60). -/
  mem : Mem
  /-- `RO_MASKS` (R62). -/
  roMasks : List Word
  /-- `FREQ_WINDOW` and the vectors, fixed at launch (R7). -/
  params : Config.Params
  /-- The model's own fields. -/
  env : Env
  deriving DecidableEq, Repr

/-- Why the machine stops with a fault. -/
inductive Fault where
  /-- A register-port read of A, X or Y before a port write, or of SP where SP_POWER_ON is None and nothing has written it. Raised by
  `portMove`. Safe: the spec says so, "faults if the register holds no value" (R31), "A port read of A, X or Y before a port
  write faults" (R41), "and a port read of SP faults" (R40; B5 and B6 of 93_implementation_defined.md). A state whose four registers
  hold values, such as `State.reset`, never reaches it: no move takes a value away. -/
  | registerNoValue (r : Reg8)
  deriving DecidableEq, Repr

/-- Why a move has no meaning. -/
inductive Refusal where
  /-- An instruction with no meaning yet. No arm raises it. Safe. -/
  | notModelled (mnemonic : String)
  /-- ALU operation codes 9 to 15: "A model refuses them" (R210). Raised by `aluMove`. Safe. -/
  | aluOpReserved (op : BitVec 4)
  /-- `start()` in a state other than Idle: "refused: the model gives it no meaning" (R254). Raised by `hostStart`.
  Safe. -/
  | startNotIdle
  /-- A term of `Instr` that is no row of the opcode table, such as STA Immediate. Raised by `present`. The decoder never
  gives one, so no step raises it. Safe. -/
  | noSuchForm
  deriving DecidableEq, Repr

/-- What the host gives at construction (R310, R332): the launch parameters of R7, PC's unspecified power-on value (R39),
and the moves to come. -/
structure Launch where
  pcPowerOn : Word
  spPowerOn : Option Byte
  mem0 : Mem
  roMasks : List Word
  params : Config.Params
  inputs : List Event
  deriving DecidableEq, Repr

/-- The launch whose parameters have the defaults of R7; where R7 leaves one open, the log names the value (4, 5). -/
def Launch.default : Launch :=
  { pcPowerOn := 0, spPowerOn := none, mem0 := [], roMasks := Config.defaultRoMasks, params := Config.defaultParams,
    inputs := [] }

/-- R330, the column "at construction" (R38 to R42). -/
def State.construct (l : Launch) : State :=
  { pc := l.pcPowerOn, a := none, x := none, y := none, sp := l.spPowerOn
    sr := { n := false, v := false, b := false, d := false, i := false, z := false, c := false }
    phase := .idle, inWait := false, term := false, cycles := 0, freq := 0, mark := none, fetched := none
    mem := l.mem0, roMasks := l.roMasks, params := l.params
    env := { inputs := l.inputs, clock := 0, draws := 0, bus := none, reply := none } }

/-- R330, the column "after reset (entering Running)", for a reset that ends at wall-clock time `now`. -/
def State.afterReset (l : Launch) (now : Time) : State :=
  { State.construct l with
    pc := joinBytes (l.mem0.read (l.params.resetVec + 1)) (l.mem0.read l.params.resetVec)
    sp := l.spPowerOn.map fun s => s - 3
    phase := .running
    mark := some { time := now, cycles := 0 }
    env := { inputs := l.inputs, clock := now, draws := 0, bus := none, reply := none } }

/-- The launch of `State.reset`: the default launch with SP_POWER_ON, which R7 leaves OPEN, named as 0x00, so that SP holds a value
(DESIGN CHOICE, unsafe, assumption log 7). -/
def Launch.ofReset : Launch := { Launch.default with spPowerOn := some 0x00 }

/-- The machine right after reset, every register holding a value: the column "after reset" under the launch `Launch.ofReset`, and the
values of A, X and Y, which R41 and R330 leave without one, as a dispatcher writes them before it reads them (R332). The value
0x00 is the model's (DESIGN CHOICE, unsafe, assumption log 6). -/
def State.reset : State :=
  { State.afterReset Launch.ofReset 0 with a := some 0x00, x := some 0x00, y := some 0x00 }

end Sys2Proof.Machine
end

