-- ==== Sys2Proof/Machine/Flags.lean ====
section
/-! DEFINITION. The status register: single flags, the packed byte (spec/10_state.md R28), and the flag rules that several ALU
operations share (spec/41_alu.md R213). -/

namespace Sys2Proof.Machine

/-- The value of one flag. -/
def SR.get (s : SR) : Flag → Bool
  | .n => s.n | .v => s.v | .b => s.b | .d => s.d | .i => s.i | .z => s.z | .c => s.c

/-- Writes one flag and keeps the others. -/
def SR.put (s : SR) (f : Flag) (w : Bool) : SR :=
  match f with
  | .n => { s with n := w } | .v => { s with v := w } | .b => { s with b := w } | .d => { s with d := w }
  | .i => { s with i := w } | .z => { s with z := w } | .c => { s with c := w }

/-- `pack(SR)` (R28): bit 5, the expansion position, reads 0. -/
def SR.pack (s : SR) : Byte :=
  BitVec.ofNat 8 (s.n.toNat * 128 + s.v.toNat * 64 + s.b.toNat * 16 + s.d.toNat * 8 + s.i.toNat * 4 + s.z.toNat * 2
    + s.c.toNat)

/-- `unpack(v)` (R28): bit 5 is ignored. -/
def SR.unpack (v : Byte) : SR :=
  { n := v.getLsbD 7, v := v.getLsbD 6, b := v.getLsbD 4, d := v.getLsbD 3, i := v.getLsbD 2, z := v.getLsbD 1
    c := v.getLsbD 0 }

/-- N and Z from a result: N is its bit 7, Z says that it is 0 (R201 to R208). -/
def SR.withNZ (s : SR) (r : Byte) : SR := { s with n := r.getLsbD 7, z := r == 0 }

/-- The flags after add and subtract (R201, R202): C as given, V from the FIRST operand and the result, N and Z from the
result. -/
def SR.afterSum (s : SR) (a r : Byte) (carry : Bool) : SR :=
  { s.withNZ r with v := a.getLsbD 7 ^^ r.getLsbD 7, c := carry }

/-- The flags after a shift or a rotate (R206 to R209): C as given, N and Z from the result, V kept. -/
def SR.afterShift (s : SR) (r : Byte) (carry : Bool) : SR := { s.withNZ r with c := carry }

end Sys2Proof.Machine
end

