-- ==== Sys2Proof/Machine/Alu.lean ====
section
/-! DEFINITION. The arithmetic/logic unit (spec/41_alu.md R200 to R215): nine total functions of the operands and the status
register, and which of them a mnemonic names (spec/40_decoder.md R127, R128). -/

namespace Sys2Proof.Machine

/-- The nine operations (R200). -/
inductive AluOp where
  | add | subtract | logicalAnd | logicalOr | logicalXor | shiftRight | shiftLeft | rotateLeft | rotateRight
  deriving DecidableEq, Repr, Inhabited

/-- The operation of a code `alu_op` (R200); codes 9 to 15 name none (R210). -/
def aluOpOfCode (code : BitVec 4) : Option AluOp :=
  match code.toNat with
  | 0 => some .add
  | 1 => some .subtract
  | 2 => some .logicalAnd
  | 3 => some .logicalOr
  | 4 => some .logicalXor
  | 5 => some .shiftRight
  | 6 => some .shiftLeft
  | 7 => some .rotateLeft
  | 8 => some .rotateRight
  | _ => none

/-- `dec(x)` (R215). -/
def decimalValue (x : Byte) : Nat := 10 * (x.toNat / 16) + x.toNat % 16

/-- `bcd(n)` (R215), for 0 ≤ n ≤ 99. -/
def bcdByte (n : Nat) : Byte := BitVec.ofNat 8 (n / 10 * 16 + n % 10)

/-- `add` (R201). -/
def aluAdd (a b : Byte) (s : SR) : Byte × SR :=
  let sum := if s.d then decimalValue a + decimalValue b + s.c.toNat else a.toNat + b.toNat + s.c.toNat
  let r := if s.d then bcdByte (sum % 100) else BitVec.ofNat 8 sum
  (r, s.afterSum a r (if s.d then decide (99 < sum) else decide (255 < sum)))

/-- `subtract` (R202): the borrow-in is the negation of C, and the carry-out says that no borrow went out. -/
def aluSubtract (a b : Byte) (s : SR) : Byte × SR :=
  let borrow : Int := 1 - s.c.toNat
  let diff : Int := if s.d then decimalValue a - decimalValue b - borrow else a.toNat - b.toNat - borrow
  let r := if s.d then bcdByte (diff % 100).toNat else BitVec.ofInt 8 diff
  (r, s.afterSum a r (decide (0 ≤ diff)))

/-- `logical_and` (R203). -/
def aluAnd (a b : Byte) (s : SR) : Byte × SR := (a &&& b, s.withNZ (a &&& b))

/-- `logical_or` (R204). -/
def aluOr (a b : Byte) (s : SR) : Byte × SR := (a ||| b, s.withNZ (a ||| b))

/-- `logical_xor` (R205). -/
def aluXor (a b : Byte) (s : SR) : Byte × SR := (a ^^^ b, s.withNZ (a ^^^ b))

/-- `shift_right` (R206). -/
def aluShiftRight (a : Byte) (s : SR) : Byte × SR :=
  let r := BitVec.ofNat 8 (a.toNat / 2)
  (r, s.afterShift r (a.getLsbD 0))

/-- `shift_left` (R207). -/
def aluShiftLeft (a : Byte) (s : SR) : Byte × SR :=
  let r := BitVec.ofNat 8 (a.toNat * 2)
  (r, s.afterShift r (a.getLsbD 7))

/-- `rotate_left` (R208). -/
def aluRotateLeft (a : Byte) (s : SR) : Byte × SR :=
  let r := BitVec.ofNat 8 (a.toNat * 2 + s.c.toNat)
  (r, s.afterShift r (a.getLsbD 7))

/-- `rotate_right` (R209). -/
def aluRotateRight (a : Byte) (s : SR) : Byte × SR :=
  let r := BitVec.ofNat 8 (a.toNat / 2 + s.c.toNat * 128)
  (r, s.afterShift r (a.getLsbD 0))

/-- The unit (R200); a one-operand operation ignores `b` (R211). -/
def AluOp.run (op : AluOp) (a b : Byte) (s : SR) : Byte × SR :=
  match op with
  | .add => aluAdd a b s
  | .subtract => aluSubtract a b s
  | .logicalAnd => aluAnd a b s
  | .logicalOr => aluOr a b s
  | .logicalXor => aluXor a b s
  | .shiftRight => aluShiftRight a s
  | .shiftLeft => aluShiftLeft a s
  | .rotateLeft => aluRotateLeft a s
  | .rotateRight => aluRotateRight a s

/-- The ALU primitive a dispatcher would call for a mnemonic (R127). No rule of the CORE depends on it. -/
def aluPrimitive : Mnemonic → Option AluOp
  | .adc => some .add
  | .sbc => some .subtract
  | .and => some .logicalAnd
  | .ora => some .logicalOr
  | .eor => some .logicalXor
  | .lsr => some .shiftRight
  | .asl => some .shiftLeft
  | .rol => some .rotateLeft
  | .ror => some .rotateRight
  | _ => none

/-- How a mnemonic reaches SR through the register port. -/
inductive SrPortUse where
  | writesFlag (f : Flag) (v : Bool) | readsAll | writesAll
  deriving DecidableEq, Repr

/-- The six named writers of the configuration flags (R128, with R144, R145, R166, R168, R175, R176). -/
def srPortUse : Mnemonic → Option SrPortUse
  | .cld => some (.writesFlag .d false)
  | .cli => some (.writesFlag .i false)
  | .sed => some (.writesFlag .d true)
  | .sei => some (.writesFlag .i true)
  | .php => some .readsAll
  | .plp => some .writesAll
  | _ => none

end Sys2Proof.Machine
end

