-- ==== Sys2Proof/Machine/Ops.lean ====
section
/-! DEFINITION. The named operations the meanings and the agents share: registers and their port, the stack pointer, memory
accesses, the frequency estimate, and the Running iteration (spec/10_state.md, 20_memory.md, 43_sequencer.md). The CORE has no
exception and no return from one (spec/60_exceptions.md R300, R305, R306), so there is no operation that takes one. -/

namespace Sys2Proof.Machine

/-! ### Outputs -/

/-- Records what a move was answered. -/
def State.answer (s : State) (r : Reply) : State := { s with env := { s.env with reply := some r } }

/-- Records a read on the bus (R250). -/
def State.strobe (s : State) (addr : Word) : State :=
  { s with env := { s.env with bus := some { addr := addr, data := s.mem.read addr } } }

/-- The decoder's outputs for the fetched byte (R36, R261); none before the first Running iteration. -/
def State.decoded (s : State) : Option (Option (Mnemonic × AddrMode)) := s.fetched.map decodeByte

/-- The host's `start()` call has not returned: it blocks from Idle's end until Terminated (R254, R267). -/
def State.startBlocks (s : State) : Bool :=
  match s.phase with
  | .resetting _ | .running => true
  | .idle | .terminated => false

/-! ### Registers -/

/-- The 8-bit register `r`, or no value. -/
def State.reg (s : State) : Reg8 → Option Byte
  | .a => s.a | .x => s.x | .y => s.y | .sp => s.sp

/-- Stores an 8-bit value in `r` (R31). -/
def State.setReg (s : State) (r : Reg8) (v : Byte) : State :=
  match r with
  | .a => { s with a := some v }
  | .x => { s with x := some v }
  | .y => { s with y := some v }
  | .sp => { s with sp := some v }

/-- `SP <- (SP - 1) mod 256` (R23); no value stays no value (R256). -/
def State.decSP (s : State) : State := { s with sp := s.sp.map fun v => v - 1 }

/-- `SP <- (SP + 1) mod 256` (R23). No rule of the CORE uses it. -/
def State.incSP (s : State) : State := { s with sp := s.sp.map fun v => v + 1 }

/-- The stack address an SP value names: `STACK_PAGE + SP` (R23, R63). -/
def stackAddr (sp : Byte) : Word := Config.stackPage + sp.setWidth 16

/-! ### Memory -/

/-- `MemWrite(addr, 1, v)` (R61): a rejected write changes nothing, and the Boolean says whether it was stored. -/
def State.memWrite (s : State) (addr : Word) (v : Byte) : State × Bool :=
  if isReadOnly s.roMasks addr then (s, false) else ({ s with mem := s.mem.set addr v }, true)

/-! ### The frequency estimate -/

/-- `freq <- n / (now - since)`, or any value when no time has elapsed (R264, R265). -/
def State.estimate (s : State) (n : Nat) (since : Time) : State :=
  if since < s.env.clock then { s with freq := (n : Hz) / (s.env.clock - since) }
  else { s with freq := Config.freeHz s.env.draws, env := { s.env with draws := s.env.draws + 1 } }

/-- `window_frequency` when the window is full (R260, R264), and nothing before. -/
def State.measureWindow (s : State) : State :=
  match s.mark with
  | none => s
  | some m =>
    if s.cycles = m.cycles + s.params.freqWindow then
      { s.estimate s.params.freqWindow m.time with mark := some { time := s.env.clock, cycles := s.cycles } }
    else s

/-- `final_frequency` (R265). -/
def State.finalFrequency (s : State) : State :=
  match s.mark with
  | none => s
  | some m => if 0 < s.cycles ∧ s.cycles < s.params.freqWindow then s.estimate s.cycles m.time else s

/-! ### The Running iteration -/

/-- The part of an iteration that follows a true poll (R260): the byte at PC is `op`; fetch it, advance PC, count. -/
def State.fetchByte (s : State) (op : Byte) : State :=
  { s with
    fetched := some op
    pc := s.pc + 1
    cycles := s.cycles + 1
    inWait := false
    env := { s.env with bus := some { addr := s.pc, data := op } } }

/-- A whole iteration after its true poll (R260): fetch, advance, count, then measure. -/
def State.iteration (s : State) (op : Byte) : State := (s.fetchByte op).measureWindow

/-- What the CORE does with an instruction (R261): the iteration that fetched its opcode byte. A term that is no row of the
opcode table has no byte. -/
def present (i : Instr) (s : State) : Host.Outcome State Fault Refusal :=
  match encode i with
  | some op => .next (s.iteration op)
  | none => .refused .noSuchForm

/-- Lays an instruction's bytes out at PC and makes the next step an iteration whose poll answers true: the sequencer is
Running, past its termination check, and the CPU loop moves next with a granted pulse. -/
def State.readyToFetch (s : State) (bytes : List Byte) : State :=
  { s with
    mem := s.mem.place s.pc bytes
    phase := .running
    inWait := true
    env := { s.env with inputs := .turn true s.env.clock :: s.env.inputs } }

end Sys2Proof.Machine
end

