-- ==== Sys2Proof/Machine/Agents.lean ====
section
/-! DEFINITION. The moves of the agents (spec/43_sequencer.md R250 to R269, spec/60_exceptions.md R310): the CPU loop's turn with
its reset sequence, pulse wait and termination check; the host's three calls; the dispatcher's use of the port, the ALU and memory. -/

namespace Sys2Proof.Machine

/-! ### Which move comes next -/

/-- The next move: the first queued one, else a free draw (R269). -/
def State.nextEvent (s : State) : Event := s.env.inputs.headD (Config.freeEvent s.env.draws)

/-- The state from which the next move acts: the move is taken, and the last step's outputs are gone. -/
def State.takeEvent (s : State) : State :=
  { s with
    env := { s.env with
      inputs := s.env.inputs.tail
      draws := if s.env.inputs.isEmpty then s.env.draws + 1 else s.env.draws
      bus := none
      reply := none } }

/-- A wall-clock draw: readings never go back (R264). -/
def State.observe (s : State) (now : Time) : State := { s with env := { s.env with clock := if s.env.clock < now then now else s.env.clock } }

/-! ### The CPU loop -/

/-- Reset reads 3, 4 and 5 (R256): a discarded read in the stack page, then SP is decremented. When SP holds no value the
address is a draw and SP still holds none. -/
def State.stackRead (s : State) (k : ResetRead) : State :=
  match s.sp with
  | some v => { (s.strobe (stackAddr v)).decSP with phase := .resetting k }
  | none =>
    { s.strobe (stackAddr (Config.freeByte s.env.draws)) with
      phase := .resetting k
      env := { (s.strobe (stackAddr (Config.freeByte s.env.draws))).env with draws := s.env.draws + 1 } }

/-- One reset read, its poll having answered true (R255 to R258). -/
def State.resetRead (s : State) : ResetRead → State
  | .fetch1 => { s.strobe s.pc with phase := .resetting .fetch2 }
  | .fetch2 => { s.strobe s.pc with phase := .resetting .stack1 }
  | .stack1 => s.stackRead .stack2
  | .stack2 => s.stackRead .stack3
  | .stack3 => s.stackRead .vectorLow
  | .vectorLow =>
    { s.strobe s.params.resetVec with phase := .resetting (.vectorHigh (s.mem.read s.params.resetVec)) }
  | .vectorHigh lo =>
    { s.strobe (s.params.resetVec + 1) with
      pc := joinBytes (s.mem.read (s.params.resetVec + 1)) lo
      phase := .running
      mark := some { time := s.env.clock, cycles := s.cycles } }

/-- The exit at the top of an iteration (R260, R262, R265): no poll and no read. -/
def State.exitLoop (s : State) : State := { s.finalFrequency with phase := .terminated }

/-- The CPU loop's turn, `run` being the meaning of an instruction. Idle and Terminated take no step (R254, R267). A false
poll changes nothing but that the wait has begun (R252). -/
def loopTurn (run : Instr → State → Host.Outcome State Fault Refusal) (pulse : Bool) (s : State) :
    Host.Outcome State Fault Refusal :=
  match s.phase with
  | .idle | .terminated => .next s
  | .resetting k => if pulse then .next (s.resetRead k) else .next s
  | .running =>
    if s.term && !s.inWait then .next s.exitLoop
    else if pulse then run (decodeInstr (s.mem.read s.pc)) s
    else .next { s with inWait := true }

/-! ### The host -/

/-- `start()` (R254). -/
def hostStart (s : State) : Host.Outcome State Fault Refusal :=
  match s.phase with
  | .idle => .next { s with phase := .resetting .fetch1 }
  | _ => .refused .startNotIdle

/-- `terminate()` (R263). -/
def hostTerminate (s : State) : Host.Outcome State Fault Refusal := .next { s with term := true }

/-- `frequency()` (R266). -/
def hostFrequency (s : State) : Host.Outcome State Fault Refusal := .next (s.answer (.hz s.freq))

/-! ### The dispatcher -/

/-- A request on the register port (R29 to R31). -/
def portMove (r : PortRequest) (s : State) : Host.Outcome State Fault Refusal :=
  match r with
  | .readReg r =>
    match s.reg r with
    | some v => .next (s.answer (.byte v))
    | none => .fault (.registerNoValue r)
  | .readPC => .next (s.answer (.word s.pc))
  | .readSR => .next (s.answer (.flags s.sr))
  | .readSRByte => .next (s.answer (.byte s.sr.pack))
  | .readFlag f => .next (s.answer (.bit (s.sr.get f)))
  | .writeReg r v => .next (s.setReg r v)
  | .writePC v => .next { s with pc := v }
  | .writeSR v => .next { s with sr := v }
  | .writeSRByte v => .next { s with sr := SR.unpack v }
  | .writeFlag f v => .next { s with sr := s.sr.put f v }

/-- An ALU operation: the result is an output, and SR' is committed (R200); codes 9 to 15 are refused (R210). -/
def aluMove (code : BitVec 4) (a b : Byte) (s : State) : Host.Outcome State Fault Refusal :=
  match aluOpOfCode code with
  | some op => .next ({ s with sr := (op.run a b s.sr).2 }.answer (.byte (op.run a b s.sr).1))
  | none => .refused (.aluOpReserved code)

/-- A memory read by the dispatcher (R60). -/
def memReadMove (addr : Word) (s : State) : Host.Outcome State Fault Refusal :=
  .next (s.answer (.byte (s.mem.read addr)))

/-- A memory write by the dispatcher (R61). -/
def memWriteMove (addr : Word) (v : Byte) (s : State) : Host.Outcome State Fault Refusal :=
  .next ((s.memWrite addr v).1.answer (.accepted (s.memWrite addr v).2))

/-- One move of one agent. -/
def agentMove (run : Instr → State → Host.Outcome State Fault Refusal) (e : Event) (s : State) :
    Host.Outcome State Fault Refusal :=
  match e with
  | .turn pulse now => loopTurn run pulse (s.observe now)
  | .start => hostStart s
  | .terminate => hostTerminate s
  | .frequency => hostFrequency s
  | .port r => portMove r s
  | .alu code a b => aluMove code a b s
  | .memRead addr => memReadMove addr s
  | .memWrite addr v => memWriteMove addr v s

end Sys2Proof.Machine
end

