-- ==== Sys2Proof/Machine/Arithmetic.lean ====
section
/-! DEFINITION. The arithmetic, compare, logic, shift and increment instructions (spec/40_decoder.md section 2). Executing them is outside the
CORE (spec/00_scope.md R5, spec/43_sequencer.md R261): the meaning of each is the Running iteration that fetches its opcode byte,
and what its mnemonic names is the out-of-scope dispatcher's to do. -/

namespace Sys2Proof.Machine

/-- ADC, add memory or immediate to A with carry (R130, R261). -/
def execAdc (m : AddrMode) (s : State) : Host.Outcome State Fault Refusal := present (.adc m) s

/-- SBC, subtract from A with borrow (R173, R261). -/
def execSbc (m : AddrMode) (s : State) : Host.Outcome State Fault Refusal := present (.sbc m) s

/-- CMP, compare A (R147, R261). -/
def execCmp (m : AddrMode) (s : State) : Host.Outcome State Fault Refusal := present (.cmp m) s

/-- CPX, compare X (R148, R261). -/
def execCpx (m : AddrMode) (s : State) : Host.Outcome State Fault Refusal := present (.cpx m) s

/-- CPY, compare Y (R149, R261). -/
def execCpy (m : AddrMode) (s : State) : Host.Outcome State Fault Refusal := present (.cpy m) s

/-- AND, bitwise AND into A (R131, R261). -/
def execAnd (m : AddrMode) (s : State) : Host.Outcome State Fault Refusal := present (.and m) s

/-- ORA, bitwise OR into A (R164, R261). -/
def execOra (m : AddrMode) (s : State) : Host.Outcome State Fault Refusal := present (.ora m) s

/-- EOR, bitwise exclusive OR into A (R153, R261). -/
def execEor (m : AddrMode) (s : State) : Host.Outcome State Fault Refusal := present (.eor m) s

/-- BIT, bit test of memory against A (R136, R261). -/
def execBit (m : AddrMode) (s : State) : Host.Outcome State Fault Refusal := present (.bit m) s

/-- ASL, arithmetic shift left of A or memory (R132, R261). -/
def execAsl (m : AddrMode) (s : State) : Host.Outcome State Fault Refusal := present (.asl m) s

/-- LSR, logical shift right of A or memory (R162, R261). -/
def execLsr (m : AddrMode) (s : State) : Host.Outcome State Fault Refusal := present (.lsr m) s

/-- ROL, rotate left through carry of A or memory (R169, R261). -/
def execRol (m : AddrMode) (s : State) : Host.Outcome State Fault Refusal := present (.rol m) s

/-- ROR, rotate right through carry of A or memory (R170, R261). -/
def execRor (m : AddrMode) (s : State) : Host.Outcome State Fault Refusal := present (.ror m) s

/-- INC, increment memory (R154, R261). -/
def execInc (m : AddrMode) (s : State) : Host.Outcome State Fault Refusal := present (.inc m) s

/-- DEC, decrement memory (R150, R261). -/
def execDec (m : AddrMode) (s : State) : Host.Outcome State Fault Refusal := present (.dec m) s

/-- INX, increment X (R155, R261). -/
def execInx (s : State) : Host.Outcome State Fault Refusal := present .inx s

/-- INY, increment Y (R156, R261). -/
def execIny (s : State) : Host.Outcome State Fault Refusal := present .iny s

/-- DEX, decrement X (R151, R261). -/
def execDex (s : State) : Host.Outcome State Fault Refusal := present .dex s

/-- DEY, decrement Y (R152, R261). -/
def execDey (s : State) : Host.Outcome State Fault Refusal := present .dey s

end Sys2Proof.Machine
end

