-- ==== Sys2Proof/Machine/Control.lean ====
section
/-! DEFINITION. The branches, jumps, returns, the break, the no-op and the flag instructions (spec/40_decoder.md section 2). Executing them is outside the
CORE (spec/00_scope.md R5, spec/43_sequencer.md R261): the meaning of each is the Running iteration that fetches its opcode byte,
and what its mnemonic names is the out-of-scope dispatcher's to do. -/

namespace Sys2Proof.Machine

/-- BCC, branch if C = 0 (R133, R261). -/
def execBcc (s : State) : Host.Outcome State Fault Refusal := present .bcc s

/-- BCS, branch if C = 1 (R134, R261). -/
def execBcs (s : State) : Host.Outcome State Fault Refusal := present .bcs s

/-- BEQ, branch if Z = 1 (R135, R261). -/
def execBeq (s : State) : Host.Outcome State Fault Refusal := present .beq s

/-- BMI, branch if N = 1 (R137, R261). -/
def execBmi (s : State) : Host.Outcome State Fault Refusal := present .bmi s

/-- BNE, branch if Z = 0 (R138, R261). -/
def execBne (s : State) : Host.Outcome State Fault Refusal := present .bne s

/-- BPL, branch if N = 0 (R139, R261). -/
def execBpl (s : State) : Host.Outcome State Fault Refusal := present .bpl s

/-- BVC, branch if V = 0 (R141, R261). -/
def execBvc (s : State) : Host.Outcome State Fault Refusal := present .bvc s

/-- BVS, branch if V = 1 (R142, R261). -/
def execBvs (s : State) : Host.Outcome State Fault Refusal := present .bvs s

/-- JMP, jump (R157, R261). -/
def execJmp (m : AddrMode) (s : State) : Host.Outcome State Fault Refusal := present (.jmp m) s

/-- JSR, jump to subroutine (R158, R261). -/
def execJsr (s : State) : Host.Outcome State Fault Refusal := present .jsr s

/-- RTS, return from subroutine (R172, R261). -/
def execRts (s : State) : Host.Outcome State Fault Refusal := present .rts s

/-- RTI, return from interrupt (R171, R261). -/
def execRti (s : State) : Host.Outcome State Fault Refusal := present .rti s

/-- BRK, software break (R140, R261). -/
def execBrk (s : State) : Host.Outcome State Fault Refusal := present .brk s

/-- NOP, no operation (R163, R261). -/
def execNop (s : State) : Host.Outcome State Fault Refusal := present .nop s

/-- CLC, clear C (R143, R261). -/
def execClc (s : State) : Host.Outcome State Fault Refusal := present .clc s

/-- CLD, clear D (R144, R261). -/
def execCld (s : State) : Host.Outcome State Fault Refusal := present .cld s

/-- CLI, clear I (R145, R261). -/
def execCli (s : State) : Host.Outcome State Fault Refusal := present .cli s

/-- CLV, clear V (R146, R261). -/
def execClv (s : State) : Host.Outcome State Fault Refusal := present .clv s

/-- SEC, set C (R174, R261). -/
def execSec (s : State) : Host.Outcome State Fault Refusal := present .sec s

/-- SED, set D (R175, R261). -/
def execSed (s : State) : Host.Outcome State Fault Refusal := present .sed s

/-- SEI, set I (R176, R261). -/
def execSei (s : State) : Host.Outcome State Fault Refusal := present .sei s

/-- An illegal opcode (R126, R301): the decoder gives None, and the loop goes on like with any other byte. -/
def execIllegal (op : Byte) (s : State) : Host.Outcome State Fault Refusal := present (.illegal op) s

end Sys2Proof.Machine
end

