-- ==== Sys2Proof/Machine/Transfers.lean ====
section
/-! DEFINITION. The loads, stores, register transfers and stack instructions (spec/40_decoder.md section 2). Executing them is outside the
CORE (spec/00_scope.md R5, spec/43_sequencer.md R261): the meaning of each is the Running iteration that fetches its opcode byte,
and what its mnemonic names is the out-of-scope dispatcher's to do. -/

namespace Sys2Proof.Machine

/-- LDA, load A (R159, R261). -/
def execLda (m : AddrMode) (s : State) : Host.Outcome State Fault Refusal := present (.lda m) s

/-- LDX, load X (R160, R261). -/
def execLdx (m : AddrMode) (s : State) : Host.Outcome State Fault Refusal := present (.ldx m) s

/-- LDY, load Y (R161, R261). -/
def execLdy (m : AddrMode) (s : State) : Host.Outcome State Fault Refusal := present (.ldy m) s

/-- STA, store A (R177, R261). -/
def execSta (m : AddrMode) (s : State) : Host.Outcome State Fault Refusal := present (.sta m) s

/-- STX, store X (R178, R261). -/
def execStx (m : AddrMode) (s : State) : Host.Outcome State Fault Refusal := present (.stx m) s

/-- STY, store Y (R179, R261). -/
def execSty (m : AddrMode) (s : State) : Host.Outcome State Fault Refusal := present (.sty m) s

/-- TAX, transfer A to X (R180, R261). -/
def execTax (s : State) : Host.Outcome State Fault Refusal := present .tax s

/-- TAY, transfer A to Y (R181, R261). -/
def execTay (s : State) : Host.Outcome State Fault Refusal := present .tay s

/-- TSX, transfer SP to X (R182, R261). -/
def execTsx (s : State) : Host.Outcome State Fault Refusal := present .tsx s

/-- TXA, transfer X to A (R183, R261). -/
def execTxa (s : State) : Host.Outcome State Fault Refusal := present .txa s

/-- TXS, transfer X to SP (R184, R261). -/
def execTxs (s : State) : Host.Outcome State Fault Refusal := present .txs s

/-- TYA, transfer Y to A (R185, R261). -/
def execTya (s : State) : Host.Outcome State Fault Refusal := present .tya s

/-- PHA, push A (R165, R261). -/
def execPha (s : State) : Host.Outcome State Fault Refusal := present .pha s

/-- PHP, push SR (R166, R261). -/
def execPhp (s : State) : Host.Outcome State Fault Refusal := present .php s

/-- PLA, pull A (R167, R261). -/
def execPla (s : State) : Host.Outcome State Fault Refusal := present .pla s

/-- PLP, pull SR (R168, R261). -/
def execPlp (s : State) : Host.Outcome State Fault Refusal := present .plp s

end Sys2Proof.Machine
end

