-- ==== Sys2Proof/Machine/Step.lean ====
section
/-! DEFINITION. One step of the machine: the next move of one agent (spec/43_sequencer.md R269). -/

namespace Sys2Proof.Machine

/-- Takes the next move and makes it. A CPU-loop turn that fetches runs the instruction its byte decodes to. -/
def step (s : State) : Host.Outcome State Fault Refusal := agentMove exec s.nextEvent s.takeEvent

/-- `s` with an instruction word placed where the next step fetches it (assumption log 3). -/
def State.withFetchWord (s : State) (nbits w : Nat) : State := s.readyToFetch (instrBytes nbits w)

end Sys2Proof.Machine
end

