-- ==== Sys2Proof/Machine/Operands.lean ====
section
/-! DEFINITION. How each addressing mode forms its operand (spec/30_encoding.md R93; UNVERIFIED, assumption log 24). No rule of the
CORE uses it: the modes are executed by the out-of-scope dispatcher. -/

namespace Sys2Proof.Machine

/-- What an addressing mode gives. -/
inductive Operand where
  | none
  | value (v : Byte)
  | address (a : Word)
  | target (a : Word)
  deriving DecidableEq, Repr

/-- A byte as an address in the zero page. -/
def zeroPageAddr (b : Byte) : Word := joinBytes 0 b

/-- A two-byte pointer in the zero page; its high byte is read at `(q + 1) mod 256`. -/
def zeroPagePointer (m : Mem) (q : Byte) : Word :=
  joinBytes (m.read (zeroPageAddr (q + 1))) (m.read (zeroPageAddr q))

/-- The Indirect pointer of JMP: the high byte is read from the same page as the low byte. -/
def pagePointer (m : Mem) (hi lo : Byte) : Word :=
  joinBytes (m.read (joinBytes hi (lo + 1))) (m.read (joinBytes hi lo))

/-- The operand of a mode with operand bytes `b1` and `b2`, `next` being the address after the instruction (R93). `none`
where the mode reads a register that holds no value (DESIGN CHOICE, assumption log 29). -/
def formOperand (m : AddrMode) (b1 b2 : Byte) (next : Word) (s : State) : Option Operand :=
  match m with
  | .accumulator => s.a.map fun v => .value v
  | .implicit => some .none
  | .immediate => some (.value b1)
  | .zeroPage => some (.address (zeroPageAddr b1))
  | .zeroPageX => s.x.map fun x => .address (zeroPageAddr (b1 + x))
  | .zeroPageY => s.y.map fun y => .address (zeroPageAddr (b1 + y))
  | .absolute => some (.address (joinBytes b2 b1))
  | .absoluteX => s.x.map fun x => .address (joinBytes b2 b1 + x.setWidth 16)
  | .absoluteY => s.y.map fun y => .address (joinBytes b2 b1 + y.setWidth 16)
  | .indirect => some (.address (pagePointer s.mem b2 b1))
  | .indexedIndirect => s.x.map fun x => .address (zeroPagePointer s.mem (b1 + x))
  | .indirectIndexed => s.y.map fun y => .address (zeroPagePointer s.mem b1 + y.setWidth 16)
  | .relative => some (.target (next + b1.signExtend 16))

end Sys2Proof.Machine
end

