-- ==== Sys2Proof/Safety.lean ====
section
/-! DEFINITION. What claims about runs are stated in: the invariant of the machine, and the pulse source's contract
(spec/43_sequencer.md R251), a premise for a claim that needs pulses. -/

namespace Sys2Proof.Machine

/-- The measurement point fits the cycle counter: it is set once Running is entered, its count is the last full window
(R264), and its time is not in the future. Before Running nothing has been counted, fetched or measured (R42, R253). -/
def State.measured (s : State) : Prop :=
  match s.phase, s.mark with
  | .idle, m | .resetting _, m => m = none ∧ s.cycles = 0 ∧ s.freq = 0 ∧ s.fetched = none
  | .running, none | .terminated, none => False
  | .running, some m | .terminated, some m =>
    s.params.freqWindow ∣ m.cycles ∧ m.cycles ≤ s.cycles ∧ s.cycles < m.cycles + s.params.freqWindow ∧
      m.time ≤ s.env.clock ∧ (s.fetched = none ↔ s.cycles = 0)

/-- The invariant of the machine: canonical memory, a positive window (R7), consistent measurement, a wait only inside an
iteration, and an end only on request (R262). -/
structure State.Inv (s : State) : Prop where
  mem : s.mem.wf = true
  window : 0 < s.params.freqWindow
  measured : s.measured
  wait : s.inWait = true → s.phase = .running
  requested : s.phase = .terminated → s.term = true
  unmeasured : s.phase = .running → s.cycles < s.params.freqWindow → s.freq = 0

/-- A, X, Y and SP all hold a value. -/
def State.registersHoldValues (s : State) : Prop := ∀ r, (s.reg r).isSome = true

/-- Everything but the model's own fields is as before. -/
def State.sameCore (s t : State) : Prop := t = { s with env := t.env }

/-- The two states agree on everything but `freq`, `mark_time` and the model's own fields other than the bus. -/
def State.sameButTime (s u : State) : Prop :=
  ∃ f m e, u = { s with freq := f, mark := m, env := e } ∧ m.map Mark.cycles = s.mark.map Mark.cycles ∧
    e.bus = s.env.bus

/-- `t` is `s` after one Running iteration that fetched the byte `op` (R260, R261, R264): what it writes, what the frequency
does, and that everything else is as before. -/
structure IterationOf (op : Byte) (s t : State) : Prop where
  fetched : t.fetched = some op
  decoded : t.decoded = some (decodeByte op)
  pc : t.pc = s.pc + 1
  cycles : t.cycles = s.cycles + 1
  bus : t.env.bus = some { addr := s.pc, data := op }
  waitOver : t.inWait = false
  window : ∀ m, s.mark = some m → s.cycles + 1 = m.cycles + s.params.freqWindow →
    t.mark = some { time := s.env.clock, cycles := s.cycles + 1 } ∧
      (m.time < s.env.clock → t.freq = (s.params.freqWindow : Hz) / (s.env.clock - m.time))
  noWindow : (∀ m, s.mark = some m → s.cycles + 1 ≠ m.cycles + s.params.freqWindow) → t.mark = s.mark ∧ t.freq = s.freq
  registers : t.a = s.a ∧ t.x = s.x ∧ t.y = s.y ∧ t.sp = s.sp ∧ t.sr = s.sr
  sequencer : t.phase = s.phase ∧ t.term = s.term
  memory : t.roMasks = s.roMasks ∧ t.params = s.params ∧ ∀ addr, t.mem.read addr = s.mem.read addr
  agents : t.env.inputs = s.env.inputs ∧ t.env.clock = s.env.clock ∧ t.env.reply = s.env.reply

/-- What spec/40_decoder.md section 2 says of one mnemonic `k`: its code, its opcodes and no others, its ALU primitive and its
use of the SR port, and the decoder's signals on each of its opcodes; the byte is read as the instruction `mk` of the mode.
That decoding writes no flag and cannot fail is in the type: `decodeByte` is a function of the byte alone. -/
def MnemonicRule (k : Mnemonic) (mk : AddrMode → Instr) (code : BitVec 6) (forms : List (AddrMode × Byte))
    (primitive : Option AluOp) (port : Option SrPortUse) : Prop :=
  k.code = code ∧ aluPrimitive k = primitive ∧ srPortUse k = port ∧
    (∀ op m, decodeByte op = some (k, m) ↔ (m, op) ∈ forms) ∧
    ∀ m op, (m, op) ∈ forms →
      decodeInstr op = mk m ∧ decValid op = true ∧ decInstr op = code ∧ decMode op = m.code

/-- The ALU's answer (R200): the operation of `code` on `a` and `b` gives the result `r`, commits `sr` into the status
register, and changes nothing else. -/
def aluAnswers (code : BitVec 4) (a b : Byte) (s : State) (r : Byte) (sr : SR) : Prop :=
  aluMove code a b s = .next { s with sr := sr, env := { s.env with reply := some (.byte r) } }

/-- A reset read in the stack page (R256): at `0x0100 + SP`, then SP one lower modulo 256; when SP holds no value, somewhere in
the stack page, and SP still holds none. -/
def stackReadOf (s t : State) (read : BusRead) : Prop :=
  (∀ v, s.sp = some v → read.addr.toNat = 0x0100 + v.toNat ∧ t.sp = some (v - 1)) ∧
  (s.sp = none → 0x0100 ≤ read.addr.toNat ∧ read.addr.toNat ≤ 0x01FF ∧ t.sp = none)

/-- `k` steps from `s` end in `t`. -/
def runsTo (k : Nat) (s t : State) : Prop := Host.Core.run Sys2Proof.core k s = .next t

/-- The wall-clock times of the granted pulses among the queued moves. -/
def grantTimes (es : List Event) : List Time :=
  es.filterMap fun e =>
    match e with
    | .turn true now => some now
    | _ => none

/-- Consecutive times lie at least `period` apart. -/
def spacedBy (period : Time) : List Time → Bool
  | t :: u :: rest => decide (t + period ≤ u) && spacedBy period (u :: rest)
  | _ => true

/-- The pulse source's contract over the queued moves (R251): no two grants closer than the period, and with a period of
zero every query is granted. The machine admits every sequence of answers (assumption log 13). -/
def pulseContract (period : Time) (es : List Event) : Prop :=
  spacedBy period (grantTimes es) = true ∧ (period = 0 → ∀ now, Event.turn false now ∉ es)

end Sys2Proof.Machine
end

