-- ==== Sys2Proof/Certificates/Slice0/Obligations.lean ====
section
/-! DEFINITION. The statements for the provers. Each docstring names the rule of spec/ it formalises; OBLIGATIONS.json lists them. -/

open Sys2Proof Sys2Proof.Machine

/-! ### The decoder and the encoder -/

/-- Decoding the byte of a well-formed instruction gives it back, whatever bytes follow, and only a well-formed one has a
byte (R91, R120, R130 to R185). -/
def Obligations.DecodeOfEncodeIsTheInstruction : Prop :=
  ∀ i : Instr,
    (i.wellFormed = true → ∃ op, encode i = some op ∧ ∀ rest, decode (op :: rest) = some (i, rest)) ∧
    (i.wellFormed = false → encode i = none)

/-- Every opcode byte decodes to a well-formed instruction, whose byte it is: no byte has two readings (R120, R126). -/
def Obligations.EncodeOfDecodeIsTheOpcode : Prop :=
  ∀ op : Byte, (decodeInstr op).wellFormed = true ∧ encode (decodeInstr op) = some op

/-- R123: the two halves agree on legality for every value, in the table form and in the field form. The field form is
that of R98 and R99, which the spec infers from R96. -/
def Obligations.LegalityHalvesAgree : Prop :=
  ∀ op : Byte, (decodeAddressing op).isSome = (decodeInstruction op).isSome ∧
    (fieldAddressing op).isSome = (fieldInstruction op).isSome

/-- R126: each illegal value gives None from the decoder and from both halves, and no other value does; there are 105. -/
def Obligations.IllegalOpcodesDecodeToNone : Prop :=
  (∀ op : Byte, isIllegalOpcode op = true → decodeByte op = none ∧ decodeAddressing op = none ∧ decodeInstruction op = none) ∧
  (∀ op : Byte, isIllegalOpcode op = false → (decodeByte op).isSome = true) ∧
  ((List.range 256).filter fun n => isIllegalOpcode (BitVec.ofNat 8 n)).length = 105 ∧
  decodeByte 0x02 = none

/-- The fields rebuild the opcode (R90), and the field-decomposition decoder of R98 and R99 computes the function of the
opcode map (R125). R98 and R99 are the spec's own inference from R96. -/
def Obligations.FieldFormComputesTheOpcodeMap : Prop :=
  ∀ op : Byte, op.toNat = (fieldA op).toNat * 32 + (fieldB op).toNat * 4 + (fieldC op).toNat ∧
    fieldAddressing op = decodeAddressing op ∧ fieldInstruction op = decodeInstruction op

/-- R94, R95: the output codes are the positions in the two lists, so 13 to 15 and 56 to 63 are never produced; and the signals
of R120, both codes with `dec_valid` and zeros without it. The codes are the spec's own decision D2. -/
def Obligations.DecoderSignalsCarryTheCodes : Prop :=
  [AddrMode.accumulator, .absolute, .absoluteX, .absoluteY, .implicit, .immediate, .indirect, .indexedIndirect,
    .indirectIndexed, .relative, .zeroPage, .zeroPageX, .zeroPageY].map (fun m => m.code.toNat) = List.range 13 ∧
  [Mnemonic.adc, .and, .asl, .bcc, .bcs, .beq, .bit, .bmi, .bne, .bpl, .brk, .bvc, .bvs, .clc, .cld, .cli, .clv, .cmp,
    .cpx, .cpy, .dec, .dex, .dey, .eor, .inc, .inx, .iny, .jmp, .jsr, .lda, .ldx, .ldy, .lsr, .nop, .ora, .pha, .php, .pla,
    .plp, .rol, .ror, .rti, .rts, .sbc, .sec, .sed, .sei, .sta, .stx, .sty, .tax, .tay, .tsx, .txa, .txs,
    .tya].map (fun k => k.code.toNat) = List.range 56 ∧
  (∀ m : AddrMode, m.code.toNat < 13) ∧ (∀ m n : AddrMode, m.code = n.code → m = n) ∧
  (∀ k : Mnemonic, k.code.toNat < 56) ∧ (∀ k l : Mnemonic, k.code = l.code → k = l) ∧
  (∀ op k m, decodeByte op = some (k, m) → decValid op = true ∧ decInstr op = k.code ∧ decMode op = m.code) ∧
  (∀ op, decodeByte op = none → decValid op = false ∧ decInstr op = 0 ∧ decMode op = 0)

/-- Words written out from the spec: 011 011 00 is JMP Indirect and 0x02 is illegal (the source's own example, E6), and one
word a family from R96. -/
def Obligations.WordsOfTheSpecDecode : Prop :=
  decodeInstr 0b01101100 = .jmp .indirect ∧ decodeInstr 0b00000010 = .illegal 0b00000010 ∧
  decodeInstr 0b01101001 = .adc .immediate ∧ decodeInstr 0b10010110 = .stx .zeroPageY ∧
  decodeInstr 0b00001010 = .asl .accumulator ∧ decodeInstr 0b10011010 = .txs ∧
  decodeInstr 0b00010000 = .bpl ∧ decodeInstr 0b11111000 = .sed ∧ decodeInstr 0b00000000 = .brk

/-- The lengths of R92, by mode: one byte, two or three. General knowledge by the spec's own mark (assumption log 24). -/
def Obligations.InstructionLengthsByMode : Prop :=
  (∀ m ∈ [AddrMode.accumulator, .implicit], m.length = 1) ∧
  (∀ m ∈ [AddrMode.immediate, .zeroPage, .zeroPageX, .zeroPageY, .relative, .indexedIndirect, .indirectIndexed],
    m.length = 2) ∧
  (∀ m ∈ [AddrMode.absolute, .absoluteX, .absoluteY, .indirect], m.length = 3)

/-! ### One statement a family of mnemonics -/

/-- ADC, SBC, AND, ORA, EOR and BIT (R130, R173, R131, R164, R153, R136): each has its code, decodes from exactly the
opcodes its rule lists, and has its ALU primitive and its use of the SR port; with the corner cases of its rule. The
opcode cells are general knowledge by the spec's own mark (assumption log 15). -/
def Obligations.ArithmeticAndLogicInstructionsFollowTheirRules : Prop :=
  MnemonicRule .adc .adc 0
    [(.immediate, 0x69), (.zeroPage, 0x65), (.zeroPageX, 0x75), (.absolute, 0x6D),
     (.absoluteX, 0x7D), (.absoluteY, 0x79), (.indexedIndirect, 0x61), (.indirectIndexed, 0x71)] (some .add) none ∧
  MnemonicRule .sbc .sbc 43
    [(.immediate, 0xE9), (.zeroPage, 0xE5), (.zeroPageX, 0xF5), (.absolute, 0xED),
     (.absoluteX, 0xFD), (.absoluteY, 0xF9), (.indexedIndirect, 0xE1), (.indirectIndexed, 0xF1)] (some .subtract) none ∧
  MnemonicRule .and .and 1
    [(.immediate, 0x29), (.zeroPage, 0x25), (.zeroPageX, 0x35), (.absolute, 0x2D),
     (.absoluteX, 0x3D), (.absoluteY, 0x39), (.indexedIndirect, 0x21), (.indirectIndexed, 0x31)] (some .logicalAnd) none ∧
  MnemonicRule .ora .ora 34
    [(.immediate, 0x09), (.zeroPage, 0x05), (.zeroPageX, 0x15), (.absolute, 0x0D),
     (.absoluteX, 0x1D), (.absoluteY, 0x19), (.indexedIndirect, 0x01), (.indirectIndexed, 0x11)] (some .logicalOr) none ∧
  MnemonicRule .eor .eor 23
    [(.immediate, 0x49), (.zeroPage, 0x45), (.zeroPageX, 0x55), (.absolute, 0x4D),
     (.absoluteX, 0x5D), (.absoluteY, 0x59), (.indexedIndirect, 0x41), (.indirectIndexed, 0x51)] (some .logicalXor) none ∧
  MnemonicRule .bit .bit 6 [(.zeroPage, 0x24), (.absolute, 0x2C)] none none ∧
  decodeByte 0x34 = none ∧ decodeByte 0x3C = none

/-- ASL, LSR, ROL, ROR, INC, DEC, INX, INY, DEX and DEY (R132, R162, R169, R170, R154, R150, R155, R156, R151, R152): each
has its code, decodes from exactly the opcodes its rule lists, and has its ALU primitive and its use of the SR port; with
the corner cases of its rule. The opcode cells are general knowledge by the spec's own mark (assumption log 15). -/
def Obligations.ShiftRotateIncrementInstructionsFollowTheirRules : Prop :=
  MnemonicRule .asl .asl 2
    [(.zeroPage, 0x06), (.zeroPageX, 0x16),
     (.absolute, 0x0E), (.absoluteX, 0x1E), (.accumulator, 0x0A)] (some .shiftLeft) none ∧
  MnemonicRule .lsr .lsr 32
    [(.zeroPage, 0x46), (.zeroPageX, 0x56),
     (.absolute, 0x4E), (.absoluteX, 0x5E), (.accumulator, 0x4A)] (some .shiftRight) none ∧
  MnemonicRule .rol .rol 39
    [(.zeroPage, 0x26), (.zeroPageX, 0x36),
     (.absolute, 0x2E), (.absoluteX, 0x3E), (.accumulator, 0x2A)] (some .rotateLeft) none ∧
  MnemonicRule .ror .ror 40
    [(.zeroPage, 0x66), (.zeroPageX, 0x76),
     (.absolute, 0x6E), (.absoluteX, 0x7E), (.accumulator, 0x6A)] (some .rotateRight) none ∧
  MnemonicRule .inc .inc 24 [(.zeroPage, 0xE6), (.zeroPageX, 0xF6), (.absolute, 0xEE), (.absoluteX, 0xFE)] none none ∧
  MnemonicRule .dec .dec 20 [(.zeroPage, 0xC6), (.zeroPageX, 0xD6), (.absolute, 0xCE), (.absoluteX, 0xDE)] none none ∧
  MnemonicRule .inx (fun _ => .inx) 25 [(.implicit, 0xE8)] none none ∧
  MnemonicRule .iny (fun _ => .iny) 26 [(.implicit, 0xC8)] none none ∧
  MnemonicRule .dex (fun _ => .dex) 21 [(.implicit, 0xCA)] none none ∧
  MnemonicRule .dey (fun _ => .dey) 22 [(.implicit, 0x88)] none none ∧
  decodeByte 0xDA = none ∧ decodeByte 0xFA = none ∧ fieldC 0xCA = 2 ∧ fieldB 0xCA = 2 ∧ fieldA 0xCA = 6

/-- CMP, CPX, CPY, LDA, LDX, LDY, STA, STX and STY (R147, R148, R149, R159, R160, R161, R177, R178, R179): each has its
code, decodes from exactly the opcodes its rule lists, and has its ALU primitive and its use of the SR port; with the
corner cases of its rule. The opcode cells are general knowledge by the spec's own mark (assumption log 15). R160 is not
cited: its remark that the rest of column c = 2 uses ZeroPageX leaves out STX, which R98 and R178 put at ZeroPageY. -/
def Obligations.CompareLoadStoreInstructionsFollowTheirRules : Prop :=
  MnemonicRule .cmp .cmp 17
    [(.immediate, 0xC9), (.zeroPage, 0xC5), (.zeroPageX, 0xD5), (.absolute, 0xCD),
     (.absoluteX, 0xDD), (.absoluteY, 0xD9), (.indexedIndirect, 0xC1), (.indirectIndexed, 0xD1)] none none ∧
  MnemonicRule .cpx .cpx 18 [(.immediate, 0xE0), (.zeroPage, 0xE4), (.absolute, 0xEC)] none none ∧
  MnemonicRule .cpy .cpy 19 [(.immediate, 0xC0), (.zeroPage, 0xC4), (.absolute, 0xCC)] none none ∧
  MnemonicRule .lda .lda 29
    [(.immediate, 0xA9), (.zeroPage, 0xA5), (.zeroPageX, 0xB5), (.absolute, 0xAD),
     (.absoluteX, 0xBD), (.absoluteY, 0xB9), (.indexedIndirect, 0xA1), (.indirectIndexed, 0xB1)] none none ∧
  MnemonicRule .ldx .ldx 30
    [(.immediate, 0xA2), (.zeroPage, 0xA6),
     (.zeroPageY, 0xB6), (.absolute, 0xAE), (.absoluteY, 0xBE)] none none ∧
  MnemonicRule .ldy .ldy 31
    [(.immediate, 0xA0), (.zeroPage, 0xA4),
     (.zeroPageX, 0xB4), (.absolute, 0xAC), (.absoluteX, 0xBC)] none none ∧
  MnemonicRule .sta .sta 47
    [(.zeroPage, 0x85), (.zeroPageX, 0x95), (.absolute, 0x8D),
     (.absoluteX, 0x9D), (.absoluteY, 0x99), (.indexedIndirect, 0x81), (.indirectIndexed, 0x91)] none none ∧
  MnemonicRule .stx .stx 48 [(.zeroPage, 0x86), (.zeroPageY, 0x96), (.absolute, 0x8E)] none none ∧
  MnemonicRule .sty .sty 49 [(.zeroPage, 0x84), (.zeroPageX, 0x94), (.absolute, 0x8C)] none none ∧
  (∀ op : Byte, op ∈ [0xA0, 0xC0, 0xE0] ↔ fieldC op = 0 ∧ fieldB op = 0 ∧ decodeAddressing op = some .immediate) ∧
  fieldA 0xA0 = 5 ∧ fieldA 0xC0 = 6 ∧ fieldA 0xE0 = 7 ∧
  (∀ op : Byte, op = 0xA2 ↔ fieldC op = 2 ∧ fieldB op = 0 ∧ decValid op = true) ∧
  (∀ op : Byte, op = 0xBC ↔ fieldC op = 0 ∧ fieldB op = 7 ∧ decValid op = true) ∧
  fieldC 0x89 = 1 ∧ fieldA 0x89 = 4 ∧ fieldB 0x89 = 2 ∧ decodeByte 0x89 = none ∧ decodeByte 0x9E = none

/-- TAX, TAY, TSX, TXA, TXS, TYA, PHA, PHP, PLA and PLP (R180, R181, R182, R183, R184, R185, R165, R166, R167, R168): each
has its code, decodes from exactly the opcodes its rule lists, and has its ALU primitive and its use of the SR port; with
the corner cases of its rule. The opcode cells are general knowledge by the spec's own mark (assumption log 15). -/
def Obligations.TransferAndStackInstructionsFollowTheirRules : Prop :=
  MnemonicRule .tax (fun _ => .tax) 50 [(.implicit, 0xAA)] none none ∧
  MnemonicRule .tay (fun _ => .tay) 51 [(.implicit, 0xA8)] none none ∧
  MnemonicRule .tsx (fun _ => .tsx) 52 [(.implicit, 0xBA)] none none ∧
  MnemonicRule .txa (fun _ => .txa) 53 [(.implicit, 0x8A)] none none ∧
  MnemonicRule .txs (fun _ => .txs) 54 [(.implicit, 0x9A)] none none ∧
  MnemonicRule .tya (fun _ => .tya) 55 [(.implicit, 0x98)] none none ∧
  MnemonicRule .pha (fun _ => .pha) 35 [(.implicit, 0x48)] none none ∧
  MnemonicRule .php (fun _ => .php) 36 [(.implicit, 0x08)] none (some .readsAll) ∧
  MnemonicRule .pla (fun _ => .pla) 37 [(.implicit, 0x68)] none none ∧
  MnemonicRule .plp (fun _ => .plp) 38 [(.implicit, 0x28)] none (some .writesAll) ∧
  fieldC 0xAA = 2 ∧ fieldB 0xAA = 2 ∧ fieldA 0xAA = 5 ∧ fieldC 0x8A = 2 ∧ fieldB 0x8A = 2 ∧ fieldA 0x8A = 4 ∧
  (∀ op : Byte, op ∈ [0x9A, 0xBA] ↔ fieldC op = 2 ∧ fieldB op = 6 ∧ decValid op = true)

/-- BCC, BCS, BEQ, BMI, BNE, BPL, BVC, BVS, JMP and JSR (R133, R134, R135, R137, R138, R139, R141, R142, R157, R158): each
has its code, decodes from exactly the opcodes its rule lists, and has its ALU primitive and its use of the SR port; with
the corner cases of its rule. The opcode cells are general knowledge by the spec's own mark (assumption log 15). -/
def Obligations.BranchAndJumpInstructionsFollowTheirRules : Prop :=
  MnemonicRule .bcc (fun _ => .bcc) 3 [(.relative, 0x90)] none none ∧
  MnemonicRule .bcs (fun _ => .bcs) 4 [(.relative, 0xB0)] none none ∧
  MnemonicRule .beq (fun _ => .beq) 5 [(.relative, 0xF0)] none none ∧
  MnemonicRule .bmi (fun _ => .bmi) 7 [(.relative, 0x30)] none none ∧
  MnemonicRule .bne (fun _ => .bne) 8 [(.relative, 0xD0)] none none ∧
  MnemonicRule .bpl (fun _ => .bpl) 9 [(.relative, 0x10)] none none ∧
  MnemonicRule .bvc (fun _ => .bvc) 11 [(.relative, 0x50)] none none ∧
  MnemonicRule .bvs (fun _ => .bvs) 12 [(.relative, 0x70)] none none ∧
  MnemonicRule .jmp .jmp 27 [(.absolute, 0x4C), (.indirect, 0x6C)] none none ∧
  MnemonicRule .jsr (fun _ => .jsr) 28 [(.absolute, 0x20)] none none ∧
  (∀ op : Byte, op = 0x6C ↔ decodeAddressing op = some .indirect) ∧
  fieldC 0x4C = 0 ∧ fieldB 0x4C = 3 ∧ fieldA 0x4C = 2 ∧ fieldC 0x6C = 0 ∧ fieldB 0x6C = 3 ∧ fieldA 0x6C = 3 ∧
  fieldC 0x20 = 0 ∧ fieldB 0x20 = 0 ∧ fieldA 0x20 = 1 ∧
  (∀ op : Byte, fieldC op = 0 → fieldB op = 0 → (fieldA op = 0 ∨ fieldA op = 2 ∨ fieldA op = 3) →
    decodeAddressing op = some .implicit)

/-- RTS, RTI, BRK, NOP, CLC, CLD, CLI, CLV, SEC, SED and SEI (R172, R171, R140, R163, R143, R144, R145, R146, R174, R175,
R176): each has its code, decodes from exactly the opcodes its rule lists, and has its ALU primitive and its use of the SR
port; with the corner cases of its rule. The opcode cells are general knowledge by the spec's own mark (assumption log
15). -/
def Obligations.ReturnBreakAndFlagInstructionsFollowTheirRules : Prop :=
  MnemonicRule .rts (fun _ => .rts) 42 [(.implicit, 0x60)] none none ∧
  MnemonicRule .rti (fun _ => .rti) 41 [(.implicit, 0x40)] none none ∧
  MnemonicRule .brk (fun _ => .brk) 10 [(.implicit, 0x00)] none none ∧
  MnemonicRule .nop (fun _ => .nop) 33 [(.implicit, 0xEA)] none none ∧
  MnemonicRule .clc (fun _ => .clc) 13 [(.implicit, 0x18)] none none ∧
  MnemonicRule .cld (fun _ => .cld) 14 [(.implicit, 0xD8)] none (some (.writesFlag .d false)) ∧
  MnemonicRule .cli (fun _ => .cli) 15 [(.implicit, 0x58)] none (some (.writesFlag .i false)) ∧
  MnemonicRule .clv (fun _ => .clv) 16 [(.implicit, 0xB8)] none none ∧
  MnemonicRule .sec (fun _ => .sec) 44 [(.implicit, 0x38)] none none ∧
  MnemonicRule .sed (fun _ => .sed) 45 [(.implicit, 0xF8)] none (some (.writesFlag .d true)) ∧
  MnemonicRule .sei (fun _ => .sei) 46 [(.implicit, 0x78)] none (some (.writesFlag .i true)) ∧
  decodeByte 0x1A = none ∧ decodeByte 0xFA = none

/-! ### Instructions as the sequencer runs them -/

/-- Every instruction of the opcode table (all 57 constructors of `Instr`, in every mode the table gives them) completes, from
every state, as one iteration that fetches its byte: PC by one, one cycle, the frequency's bookkeeping, and no other register, flag
or byte of memory. That this is an instruction's whole effect is R261's "The CORE does nothing more with them"; that `exec` stands
for the iteration is the model's form (assumption log 1). -/
def Obligations.EveryInstructionCompletesAsOneIteration : Prop :=
  ∀ (i : Instr) (s : State), i.wellFormed = true →
    ∃ op t, encode i = some op ∧ exec i s = .next t ∧ IterationOf op s t

/-- R301: an illegal opcode is a value. When the byte a granted turn fetches is illegal, the decoder gives None and the step is an
iteration like any other: `dec_valid` is 0, nothing else records the byte, and the loop goes on. -/
def Obligations.IllegalOpcodeIsAValueNotAnEvent : Prop :=
  ∀ (s : State) (now : Time) (rest : List Event), s.phase = .running → (s.term = false ∨ s.inWait = true) →
    s.env.inputs = .turn true now :: rest → isIllegalOpcode (s.mem.read s.pc) = true →
    decodeByte (s.mem.read s.pc) = none ∧ decValid (s.mem.read s.pc) = false ∧
      ∃ t, step s = .next t ∧ IterationOf (s.mem.read s.pc) (s.takeEvent.observe now) t ∧ t.phase = .running ∧
        t.decoded = some none

/-- A step makes the next move (R269): whatever it is, the step is that agent's operation from the state whose move is taken, and
taking a move changes nothing of the CORE. A turn of the CPU loop before `start()` or after the end changes nothing and reads nothing
(R254, R267, R313); that it is a step at all is the model's form (assumption log 22). What a turn does in the other states, the
statements on the pulse wait, the reset reads and the Running turn say. The moves as a list in the state, with a free value past its
end, are the model's choice (assumption log 2). -/
def Obligations.StepMakesTheNextMove : Prop :=
  ∀ s : State, s.sameCore s.takeEvent ∧ s.takeEvent.env.inputs = s.env.inputs.tail ∧
    (∀ e rest, s.env.inputs = e :: rest → s.nextEvent = e) ∧
    match s.nextEvent with
    | .turn _ _ => s.phase = .idle ∨ s.phase = .terminated →
        ∃ t, step s = .next t ∧ s.sameCore t ∧ t.env.bus = none ∧ t.env.inputs = s.env.inputs.tail
    | .start => step s = hostStart s.takeEvent
    | .terminate => step s = hostTerminate s.takeEvent
    | .frequency => step s = hostFrequency s.takeEvent
    | .port r => step s = portMove r s.takeEvent
    | .alu code a b => step s = aluMove code a b s.takeEvent
    | .memRead addr => step s = memReadMove addr s.takeEvent
    | .memWrite addr v => step s = memWriteMove addr v s.takeEvent

/-- A step runs the decoded instruction: in Running, past the check or with no termination request, a granted poll makes
the step `exec` of what the byte at PC decodes to, from the state whose move is taken and whose clock is read (R260,
R261). That `exec` of an instruction stands for the iteration that fetches its byte is the model's form (assumption log
1). -/
def Obligations.StepRunsTheDecodedInstruction : Prop :=
  ∀ (s : State) (i : Instr) (now : Time) (rest : List Event), s.phase = .running → (s.term = false ∨ s.inWait = true) →
    s.env.inputs = .turn true now :: rest → decode [s.mem.read s.pc] = some (i, []) →
    i.wellFormed = true ∧ step s = exec i (s.takeEvent.observe now)

/-- One turn of the Running loop (R260, with R24 and R262). With a request seen at the top it takes the final frequency
(R265) and exits, with no read; otherwise a true poll makes the whole iteration on the byte at PC, PC wrapping at the top
of the address space, and a false one only begins the wait. Within the wait the flag is not read. The bit `inWait` that
tells this is the model's choice (assumption log 12). -/
def Obligations.RunningTurnFollowsTheIterationRule : Prop :=
  ∀ (s : State) (pulse : Bool) (now : Time) (rest : List Event), s.phase = .running →
    s.env.inputs = .turn pulse now :: rest →
    (s.term = true → s.inWait = false → ∃ t, step s = .next t ∧ t.env.bus = none ∧
      t = { (s.takeEvent.observe now).finalFrequency with phase := .terminated }) ∧
    (s.term = false ∨ s.inWait = true → pulse = true → ∃ t, step s = .next t ∧
      IterationOf (s.mem.read s.pc) (s.takeEvent.observe now) t ∧ t.pc.toNat = (s.pc.toNat + 1) % 65536) ∧
    (s.term = false ∨ s.inWait = true → pulse = false →
      step s = .next { s.takeEvent.observe now with inWait := true })

/-- A pulse wait, before a reset read or within an iteration (R252). A poll that answers false changes no state of the
CORE and reads nothing; one that answers true makes the one bus read of the same step. The bit `inWait`, which a false
poll sets and a granted one clears, is the model's choice (assumption log 12). -/
def Obligations.PulseWaitFollowsItsRule : Prop :=
  ∀ (s : State) (pulse : Bool) (now : Time) (rest : List Event), s.env.inputs = .turn pulse now :: rest →
    ((∃ k, s.phase = .resetting k) ∨ (s.phase = .running ∧ (s.term = false ∨ s.inWait = true))) →
    ∃ t, step s = .next t ∧
      (pulse = false → t = { s with inWait := t.inWait, env := t.env } ∧ t.env.bus = none) ∧
      (pulse = true → t.inWait = (s.inWait && decide (s.phase ≠ .running)) ∧
        ∃ read, t.env.bus = some read ∧ read.data = s.mem.read read.addr)

/-- The granted turn that brings `cycles - mark_cycles` to FREQ_WINDOW moves the mark to its own time and count, and takes `freq`
as FREQ_WINDOW over the elapsed time when any has elapsed; one that does not leaves both (R264). That the turn's time is the later
of the clock and its reading is the model's choice (assumption log 11). -/
def Obligations.FullWindowMeasuresTheFrequency : Prop :=
  ∀ (s : State) (m : Mark) (now : Time) (rest : List Event), s.phase = .running → (s.term = false ∨ s.inWait = true) →
    s.mark = some m → s.env.inputs = .turn true now :: rest →
    ∃ t, step s = .next t ∧ t.env.clock = max s.env.clock now ∧
      (s.cycles + 1 = m.cycles + s.params.freqWindow → t.mark = some { time := t.env.clock, cycles := s.cycles + 1 } ∧
        (m.time < t.env.clock → t.freq = (s.params.freqWindow : Hz) / (t.env.clock - m.time))) ∧
      (s.cycles + 1 ≠ m.cycles + s.params.freqWindow → t.mark = s.mark ∧ t.freq = s.freq)

/-! ### Runs of the sequencer -/

/-- After n granted pulses in Running, `cycles` and PC have advanced by n, whatever bytes were fetched, and the loop still
runs. R334 infers it from R260. -/
def Obligations.GrantedPulsesAdvanceCyclesAndPC : Prop :=
  ∀ (times : List Time) (rest : List Event) (s : State), s.phase = .running → s.term = false →
    s.env.inputs = times.map (Event.turn true) ++ rest →
    ∃ t, runsTo times.length s t ∧ t.pc = s.pc + BitVec.ofNat 16 times.length ∧ t.cycles = s.cycles + times.length ∧
      t.phase = .running ∧ t.term = false ∧ t.sr = s.sr ∧ t.mem = s.mem ∧ t.env.inputs = rest

/-- The Stalled outcome (R268, conflict C4): in any pulse wait, before a reset read or within an iteration, while every poll answers
false nothing in the CORE changes, a pending termination request included; it is never observed. -/
def Obligations.FalsePollsStallTheLoop : Prop :=
  ∀ (times : List Time) (rest : List Event) (s : State),
    ((∃ k, s.phase = .resetting k) ∨ (s.phase = .running ∧ s.inWait = true)) →
    s.env.inputs = times.map (Event.turn false) ++ rest →
    ∃ t, runsTo times.length s t ∧ s.sameCore t ∧ t.env.inputs = rest

/-- R262: a request that arrives during a pulse wait takes effect after that wait's read, PC advance and count are done: the
next turn exits. The consequence is the spec's own inference from R260. -/
def Obligations.RequestDuringWaitEndsAfterTheRead : Prop :=
  ∀ (s : State) (now later : Time) (pulse : Bool) (rest : List Event), s.phase = .running → s.inWait = true →
    s.env.inputs = .terminate :: .turn true now :: .turn pulse later :: rest →
    ∃ t, runsTo 3 s t ∧ t.phase = .terminated ∧ t.term = true ∧ t.cycles = s.cycles + 1 ∧ t.pc = s.pc + 1 ∧
      t.fetched = some (s.mem.read s.pc)

/-- Terminated is final (R267). The loop's turn changes nothing and reads nothing, no move leaves Terminated,
`frequency()` still answers, and the host's `start()` no longer blocks. R267 says that no further step is taken; that the
turn there is a step that changes nothing is the model's form (assumption log 22). -/
def Obligations.TerminatedIsFinal : Prop :=
  ∀ s : State, s.phase = .terminated →
    (∀ pulse now rest, s.env.inputs = .turn pulse now :: rest → ∃ t, step s = .next t ∧ s.sameCore t ∧ t.env.bus = none) ∧
    (∀ t, step s = .next t → t.phase = .terminated) ∧
    (∃ t, hostFrequency s = .next t ∧ t.env.reply = some (.hz s.freq) ∧ s.sameCore t) ∧ s.startBlocks = false

/-- Only an iteration fetches and counts (R34, R36; what it does is R261's). A step that answers a next state keeps `fetched`, its
decode and `cycles`, or it is the granted turn of an iteration, which shows the byte at PC and its decode, counts one, moves PC by
one and goes on running, whatever the byte is. That a granted turn of Running does so, and that an illegal byte does not stop
the loop, two other statements say (`RunningTurnFollowsTheIterationRule`, `IllegalOpcodeIsAValueNotAnEvent`). -/
def Obligations.OnlyAnIterationFetchesAndCounts : Prop :=
  ∀ s t : State, step s = .next t →
    (t.fetched = s.fetched ∧ t.decoded = s.decoded ∧ t.cycles = s.cycles) ∨
    (s.phase = .running ∧ (∃ now, s.nextEvent = .turn true now) ∧ t.fetched = some (s.mem.read s.pc) ∧
      t.decoded = some (decodeByte (s.mem.read s.pc)) ∧ t.cycles = s.cycles + 1 ∧ t.pc = s.pc + 1 ∧ t.phase = .running)

/-- R33, R263: the termination flag is sticky, and only `terminate()` sets it. -/
def Obligations.TerminationFlagIsSticky : Prop :=
  ∀ s t : State, step s = .next t → t.term = (s.term || decide (s.nextEvent = .terminate))

/-- A, X and Y change only by a write on the register port, and SP only by one or in reset reads 3 to 5, by the granted turn that
makes the read (R21, R22, R23, R256). -/
def Obligations.RegistersChangeOnlyThroughThePort : Prop :=
  ∀ s t : State, step s = .next t →
    (t.a = s.a ∨ ∃ v, s.nextEvent = .port (.writeReg .a v) ∧ t.a = some v) ∧
    (t.x = s.x ∨ ∃ v, s.nextEvent = .port (.writeReg .x v) ∧ t.x = some v) ∧
    (t.y = s.y ∨ ∃ v, s.nextEvent = .port (.writeReg .y v) ∧ t.y = some v) ∧
    (t.sp = s.sp ∨ (∃ v, s.nextEvent = .port (.writeReg .sp v) ∧ t.sp = some v) ∨
      ((∃ now, s.nextEvent = .turn true now) ∧
        (s.phase = .resetting .stack1 ∨ s.phase = .resetting .stack2 ∨ s.phase = .resetting .stack3) ∧
        t.sp = s.sp.map fun v => v - 1))

/-- PC changes only by the advance of an iteration, by reset read 7, each in its granted turn, or by a write on the register port (R24,
R29, R257, R260). -/
def Obligations.ProgramCounterHasThreeWriters : Prop :=
  ∀ s t : State, step s = .next t →
    t.pc = s.pc ∨
    ((∃ now, s.nextEvent = .turn true now) ∧ s.phase = .running ∧ t.cycles = s.cycles + 1 ∧ t.pc = s.pc + 1) ∨
    (∃ v, s.nextEvent = .port (.writePC v) ∧ t.pc = v) ∨
    ((∃ now, s.nextEvent = .turn true now) ∧
      ∃ lo, s.phase = .resetting (.vectorHigh lo) ∧ t.phase = .running ∧ 
        t.pc = joinBytes (s.mem.read (s.params.resetVec + 1)) lo)

/-- R26, R27: the status register changes only by an ALU operation or through the port, and D, I and B only through the port. -/
def Obligations.FlagsChangeOnlyByAluAndPort : Prop :=
  ∀ s t : State, step s = .next t →
    (t.sr = s.sr ∨ (∃ code a b, s.nextEvent = .alu code a b) ∨ ∃ r, s.nextEvent = .port r) ∧
    ((t.sr.d = s.sr.d ∧ t.sr.i = s.sr.i ∧ t.sr.b = s.sr.b) ∨ ∃ r, s.nextEvent = .port r)

/-- The CORE issues only reads (R70). Memory changes only by a write of the dispatcher, the masks and the parameters of R7 never; and a
step makes a read only as a granted turn of the reset sequence or of Running, one read, of the byte that memory holds at that
moment. In Running the read is at PC, and a step that counts a cycle, the iteration, has made it (R74). -/
def Obligations.TheCoreOnlyReadsMemory : Prop :=
  ∀ s t : State, step s = .next t → t.roMasks = s.roMasks ∧ t.params = s.params ∧
    (t.mem = s.mem ∨ ∃ addr v, s.nextEvent = .memWrite addr v) ∧
    (∀ read, t.env.bus = some read → read.data = s.mem.read read.addr ∧ t.mem = s.mem ∧
      (∃ now, s.nextEvent = .turn true now) ∧ ((∃ k, s.phase = .resetting k) ∨ s.phase = .running) ∧
      (s.phase = .running → read.addr = s.pc)) ∧
    (t.cycles ≠ s.cycles → s.phase = .running ∧ t.env.bus = some { addr := s.pc, data := s.mem.read s.pc })

/-- The CPU loop neither reads nor writes A, X and Y (R21, R22); and neither does it SR, so that no flag reaches it, the
interrupt flag included. The clause on SR follows from R253, R303 and the table of R26, which the spec infers. From two
states that differ in these registers alone, its turn ends in two that differ in them alone. -/
def Obligations.TheLoopNeitherReadsNorWritesDataRegisters : Prop :=
  ∀ (s : State) (a x y : Option Byte) (sr : SR) (pulse : Bool) (now : Time) (rest : List Event),
    s.env.inputs = .turn pulse now :: rest →
    ∃ t, step s = .next t ∧ t.a = s.a ∧ t.x = s.x ∧ t.y = s.y ∧ t.sr = s.sr ∧
      step { s with a := a, x := x, y := y, sr := sr } = .next { t with a := a, x := x, y := y, sr := sr }

/-- The CORE has no trap and no privileged operation (R300, R305, R307): a step stops only on a port read of a register without a value
(R31), an ALU code that names no operation (R210), or a `start()` outside Idle (R254). Once A, X, Y and SP hold values they always do,
so that no read faults; `State.reset` is such a state by the model's choice of values (assumption logs 6 and 7). -/
def Obligations.StepStopsOnlyWhereTheSpecStops : Prop :=
  ∀ s : State,
    (∀ f, step s = .fault f → ∃ r, s.nextEvent = .port (.readReg r) ∧ s.reg r = none ∧ f = .registerNoValue r) ∧
    (∀ r, step s = .refused r →
      (∃ code a b, s.nextEvent = .alu code a b ∧ 9 ≤ code.toNat ∧ r = .aluOpReserved code) ∨
      (s.nextEvent = .start ∧ s.phase ≠ .idle ∧ r = .startNotIdle)) ∧
    (s.registersHoldValues → (∀ f, step s ≠ .fault f) ∧ ∀ t, step s = .next t → t.registersHoldValues) ∧
    State.reset.registersHoldValues

/-- Wall-clock time reaches only `freq` and its bookkeeping: from two states that differ in nothing else, one turn of the CPU
loop with the same poll answer and any two clock readings ends in two such states. R334 infers it. -/
def Obligations.WallClockReachesOnlyTheFrequency : Prop :=
  ∀ (s u : State) (pulse : Bool) (now later : Time) (rest rest' : List Event), s.sameButTime u →
    u.env.draws = s.env.draws → s.env.inputs = .turn pulse now :: rest → u.env.inputs = .turn pulse later :: rest' →
    ∃ s' u', step s = .next s' ∧ step u = .next u' ∧ s'.sameButTime u'

/-! ### The invariant -/

/-- Every step keeps the invariant of the machine: canonical memory, a positive FREQ_WINDOW (R7), a measurement point that fits the
cycle counter, a wait only in Running, an end only on request. -/
def Obligations.EveryStepKeepsTheInvariant : Prop :=
  ∀ s t : State, s.Inv → step s = .next t → t.Inv

/-- The invariant holds at construction, for every canonical MEM0 and every FREQ_WINDOW that is positive as R7 says, and after reset. -/
def Obligations.ConstructionAndResetHaveTheInvariant : Prop :=
  (∀ l : Launch, l.mem0.wf = true → 0 < l.params.freqWindow → (State.construct l).Inv) ∧
  (∀ (l : Launch) (now : Time), l.mem0.wf = true → 0 < l.params.freqWindow → (State.afterReset l now).Inv) ∧
  State.reset.Inv

/-! ### Start, reset and termination -/

/-- R254: `start()` in Idle enters Resetting(1) and blocks until Terminated; in any other state it is refused. R263: `terminate()` sets
`term` and returns, in any state, and a second one has no further effect. -/
def Obligations.HostStartsOnceAndTerminatesAnyTime : Prop :=
  (∀ s : State, s.phase = .idle → s.startBlocks = false ∧
    ∃ t, hostStart s = .next t ∧ t = { s with phase := .resetting .fetch1 } ∧ t.startBlocks = true) ∧
  (∀ s t : State, s.startBlocks = true → step s = .next t → t.startBlocks = true ∨ t.phase = .terminated) ∧
  (∀ s : State, s.phase ≠ .idle → hostStart s = .refused .startNotIdle) ∧
  (∀ s : State, hostTerminate s = .next { s with term := true }) ∧
  (∀ s : State, s.term = true → hostTerminate s = .next s)

/-- R253: the reset sequence writes only PC and SP (and its own place and, at its end, the marks). R255: reads 1 and 2, on a true poll,
read at PC, discard the byte and leave PC. R256: reads 3 to 5 read in the stack page at `0x0100 + SP` and decrement SP modulo 256;
with no value in SP the address is somewhere in the stack page and SP still holds none. R257: read 6 reads the vector's low byte
at RESET_VEC and read 7 its high byte at the next address, modulo 2^16 (assumption log 14), and PC is high then low. R258: then Running,
and the marks are set. The discarded reads' addresses are the spec's own decision D5; that the turn's time is the later of the
clock and its reading is the model's choice (assumption log 11). -/
def Obligations.ResetReadsFollowTheirRules : Prop :=
  ∀ (s : State) (now : Time) (rest : List Event), s.env.inputs = .turn true now :: rest →
    ∀ k, s.phase = .resetting k → ∃ t read, step s = .next t ∧ t.env.bus = some read ∧
      read.data = s.mem.read read.addr ∧ t.env.clock = max s.env.clock now ∧
      t = { s with pc := t.pc, sp := t.sp, phase := t.phase, mark := t.mark, env := t.env } ∧
      match k with
      | .fetch1 => t.phase = .resetting .fetch2 ∧ read.addr = s.pc ∧ t.pc = s.pc ∧ t.sp = s.sp ∧ t.mark = s.mark
      | .fetch2 => t.phase = .resetting .stack1 ∧ read.addr = s.pc ∧ t.pc = s.pc ∧ t.sp = s.sp ∧ t.mark = s.mark
      | .stack1 => t.phase = .resetting .stack2 ∧ t.pc = s.pc ∧ t.mark = s.mark ∧ stackReadOf s t read
      | .stack2 => t.phase = .resetting .stack3 ∧ t.pc = s.pc ∧ t.mark = s.mark ∧ stackReadOf s t read
      | .stack3 => t.phase = .resetting .vectorLow ∧ t.pc = s.pc ∧ t.mark = s.mark ∧ stackReadOf s t read
      | .vectorLow => t.phase = .resetting (.vectorHigh read.data) ∧ read.addr = s.params.resetVec ∧ t.pc = s.pc ∧ t.sp = s.sp ∧
          t.mark = s.mark
      | .vectorHigh lo => t.phase = .running ∧ read.addr.toNat = (s.params.resetVec.toNat + 1) % 65536 ∧ t.pc = read.data ++ lo ∧
          t.sp = s.sp ∧
          t.mark = some { time := t.env.clock, cycles := s.cycles }

/-- From construction, `start()` and seven granted polls, with any false ones between them left out, reach the column "after
reset" of R330: Running at the vector, SP three lower or still without a value, and nothing counted, fetched or measured. R259
and R330 are the spec's own summaries. -/
def Obligations.ResetSequenceEndsInTheResetState : Prop :=
  ∀ (l : Launch) (t1 t2 t3 t4 t5 t6 t7 : Time) (rest : List Event),
    l.inputs = .start :: [t1, t2, t3, t4, t5, t6, t7].map (Event.turn true) ++ rest →
    ∃ t, runsTo 8 (State.construct l) t ∧ (State.afterReset l t.env.clock).sameCore t ∧ t.env.inputs = rest

/-- R42: the sequencer's values at construction. -/
def Obligations.ConstructionLeavesTheStatedValues : Prop :=
  ∀ l : Launch, let s := State.construct l
    s.phase = .idle ∧ s.term = false ∧ s.cycles = 0 ∧ s.freq = 0 ∧ s.mark = none ∧ s.fetched = none

/-- R38, R40, R41: at construction and after reset every flag is false, A, X and Y hold no value and a port read of them faults; SP
is the launch parameter, then three lower modulo 256, and where the parameter is None it holds no value at either time and a port
read of it faults. That the reset sequence ends in `State.afterReset` is a statement of its own. -/
def Obligations.RegistersAtConstructionAndAfterReset : Prop :=
  ∀ (l : Launch) (now : Time),
    (∀ s ∈ [State.construct l, State.afterReset l now], (∀ f : Flag, s.sr.get f = false) ∧
      (∀ r ∈ [Reg8.a, .x, .y], s.reg r = none ∧ portMove (.readReg r) s = .fault (.registerNoValue r)) ∧
      (l.spPowerOn = none → s.sp = none ∧ portMove (.readReg .sp) s = .fault (.registerNoValue .sp))) ∧
    (∀ v, l.spPowerOn = some v → (State.construct l).sp = some v ∧
      (State.afterReset l now).sp = some (BitVec.ofNat 8 ((v.toNat + 253) % 256)))

/-- The values after reset (R330, which lists them from the rules of the other files): the vector in PC whatever PC held before, SP
three lower modulo 256 or without a value, no value in A, X, Y and `fetched`, every flag false, Running, nothing counted. And
`State.reset`, the model's own reset state, is that state under one launch with the model's 0x00 written to A, X and Y through
the port, as R332 asks of a dispatcher (assumption logs 6 and 7), so that a port read of each register answers its value. -/
def Obligations.ResetLeavesTheStatedValues : Prop :=
  (∀ (l : Launch) (now : Time), let s := State.afterReset l now
    s.pc = l.mem0.read (l.params.resetVec + 1) ++ l.mem0.read l.params.resetVec ∧ s.sp = l.spPowerOn.map (fun v => v - 3) ∧
    s.a = none ∧ s.x = none ∧ s.y = none ∧ (∀ f : Flag, s.sr.get f = false) ∧ s.sr.pack = 0 ∧ s.phase = .running ∧
    s.term = false ∧ s.cycles = 0 ∧ s.freq = 0 ∧ s.mark = some { time := now, cycles := 0 } ∧ s.fetched = none ∧
    s.mem = l.mem0 ∧ s.roMasks = l.roMasks ∧ s.params = l.params ∧
    ∀ p, State.afterReset { l with pcPowerOn := p } now = s) ∧
  (∃ s t, portMove (.writeReg .a 0) (State.afterReset Launch.ofReset 0) = .next s ∧
    portMove (.writeReg .x 0) s = .next t ∧ portMove (.writeReg .y 0) t = .next State.reset) ∧
  ∀ r, ∃ v t, State.reset.reg r = some v ∧ portMove (.readReg r) State.reset = .next t ∧ t.env.reply = some (.byte v)

/-- At the exit, with 0 < cycles < FREQ_WINDOW the estimate is taken from the cycles that did elapse, when time has
elapsed; with none or at least a full window `freq` keeps its value (R265). That the exit's time is the later of the clock
and the turn's reading is the model's choice (assumption log 11). -/
def Obligations.ExitTakesTheFinalFrequency : Prop :=
  ∀ (s : State) (m : Mark) (pulse : Bool) (now : Time) (rest : List Event), s.phase = .running → s.term = true →
    s.inWait = false → s.mark = some m → s.env.inputs = .turn pulse now :: rest →
    ∃ t, step s = .next t ∧ t.phase = .terminated ∧ t.env.clock = max s.env.clock now ∧
      (0 < s.cycles → s.cycles < s.params.freqWindow → m.time < t.env.clock → t.freq = (s.cycles : Hz) / (t.env.clock - m.time)) ∧
      (s.cycles = 0 ∨ s.params.freqWindow ≤ s.cycles → t.freq = s.freq)

/-- R266: `frequency()` answers `freq`, in any state, and changes nothing. -/
def Obligations.FrequencyCallReadsTheEstimate : Prop :=
  ∀ s : State, ∃ t, hostFrequency s = .next t ∧ t.env.reply = some (.hz s.freq) ∧ s.sameCore t

/-! ### The ALU -/

/-- R201: `add`, in binary and in decimal mode, with V from the FIRST operand and the result. The carry-in in decimal mode, the
reading of non-BCD nibbles and the clearing of C are the spec's own decisions D12 to D14. -/
def Obligations.AddFollowsItsRule : Prop :=
  ∀ (a b : Byte) (s : State), ∃ r sr, aluAnswers 0 a b s r sr ∧
    (s.sr.d = false → let sum := a.toNat + b.toNat + s.sr.c.toNat
      r.toNat = sum % 256 ∧ (sr.c = true ↔ 255 < sum)) ∧
    (s.sr.d = true → let sum := (10 * (a.toNat / 16) + a.toNat % 16) + (10 * (b.toNat / 16) + b.toNat % 16) + s.sr.c.toNat
      r.toNat = 16 * (sum % 100 / 10) + sum % 100 % 10 ∧ (sr.c = true ↔ 99 < sum)) ∧
    sr.v = (a.msb ^^ r.msb) ∧ sr.n = r.msb ∧ (sr.z = true ↔ r = 0) ∧ sr.d = s.sr.d ∧ sr.i = s.sr.i ∧ sr.b = s.sr.b

/-- R202: `subtract`, with the borrow-in the negation of C, and C set exactly when the difference is not negative. Non-BCD
nibbles are read by the spec's own decision D13. -/
def Obligations.SubtractFollowsItsRule : Prop :=
  ∀ (a b : Byte) (s : State), ∃ r sr, aluAnswers 1 a b s r sr ∧
    (s.sr.d = false → let diff : Int := a.toNat - b.toNat - (1 - s.sr.c.toNat)
      (r.toNat : Int) = diff % 256 ∧ (sr.c = true ↔ 0 ≤ diff)) ∧
    (s.sr.d = true → let diff : Int := (10 * (a.toNat / 16) + a.toNat % 16 : Nat) -
        (10 * (b.toNat / 16) + b.toNat % 16 : Nat) - (1 - s.sr.c.toNat)
      (r.toNat : Int) = 16 * (diff % 100 / 10) + diff % 100 % 10 ∧ (sr.c = true ↔ 0 ≤ diff)) ∧
    sr.v = (a.msb ^^ r.msb) ∧ sr.n = r.msb ∧ (sr.z = true ↔ r = 0) ∧ sr.d = s.sr.d ∧ sr.i = s.sr.i ∧ sr.b = s.sr.b

/-- The digit-by-digit forms of decimal add and subtract compute the same functions, for every input, non-BCD ones included
(R201, R202, where the spec infers them). -/
def Obligations.DigitByDigitFormsAgree : Prop :=
  ∀ (a b : Byte) (s : SR), s.d = true →
    (let l := a.toNat % 16 + b.toNat % 16 + s.c.toNat
     let h := a.toNat / 16 + b.toNat / 16 + l / 10
     (aluAdd a b s).1.toNat = 16 * (h % 10) + l % 10 ∧ ((aluAdd a b s).2.c = true ↔ 10 ≤ h)) ∧
    (let l : Int := (a.toNat % 16 : Nat) - (b.toNat % 16 : Nat) - (1 - s.c.toNat)
     let h : Int := (a.toNat / 16 : Nat) - (b.toNat / 16 : Nat) + l / 10
     ((aluSubtract a b s).1.toNat : Int) = 16 * (h % 10) + l % 10 ∧ ((aluSubtract a b s).2.c = true ↔ 0 ≤ h))

/-- R203, R204, R205: the logical operations write N and Z from the result and leave C, V, D, I and B. -/
def Obligations.LogicalOperationsFollowTheirRules : Prop :=
  ∀ (a b : Byte) (s : State),
    aluAnswers 2 a b s (a &&& b) { s.sr with n := (a &&& b).msb, z := decide (a &&& b = 0) } ∧
    aluAnswers 3 a b s (a ||| b) { s.sr with n := (a ||| b).msb, z := decide (a ||| b = 0) } ∧
    aluAnswers 4 a b s (a ^^^ b) { s.sr with n := (a ^^^ b).msb, z := decide (a ^^^ b = 0) }

/-- R206 to R209: the shifts and rotates, bit by bit, with C from the bit shifted out, N cleared (shift_right), the old bit 6
(the left ones) or the old carry (rotate_right), and V, D, I and B left. V in the rotates is the spec's own decision D15. -/
def Obligations.ShiftsAndRotatesFollowTheirRules : Prop :=
  ∀ (a b : Byte) (s : State), let cin : Byte := if s.sr.c then 1 else 0
    aluAnswers 5 a b s (a >>> 1) { s.sr with c := a.getLsbD 0, n := false, z := decide (a >>> 1 = 0) } ∧
    aluAnswers 6 a b s (a <<< 1) { s.sr with c := a.getLsbD 7, n := a.getLsbD 6, z := decide (a <<< 1 = 0) } ∧
    aluAnswers 7 a b s (a <<< 1 ||| cin)
      { s.sr with c := a.getLsbD 7, n := a.getLsbD 6, z := decide (a <<< 1 ||| cin = 0) } ∧
    aluAnswers 8 a b s (a >>> 1 ||| cin <<< 7)
      { s.sr with c := a.getLsbD 0, n := s.sr.c, z := decide (a >>> 1 ||| cin <<< 7 = 0) }

/-- The round trip of R214 (the source's testable property P2): in binary mode subtract undoes add. -/
def Obligations.SubtractUndoesAdd : Prop :=
  ∀ (a b : Byte) (s u : SR), s.d = false → s.c = false → u.d = false → u.c = true →
    (aluSubtract (aluAdd a b s).1 b u).1 = a

/-- The decimal digits of R214 (P3): in decimal mode both digits of the result of add and of subtract are 0 to 9, whatever the
operands; for non-BCD operands this rests on decision D13. -/
def Obligations.DecimalResultsAreDigits : Prop :=
  ∀ (a b : Byte) (s : SR), s.d = true →
    (aluAdd a b s).1.toNat / 16 < 10 ∧ (aluAdd a b s).1.toNat % 16 < 10 ∧
    (aluSubtract a b s).1.toNat / 16 < 10 ∧ (aluSubtract a b s).1.toNat % 16 < 10

/-- No operation mutates D, I or B (R27); a one-operand operation ignores `b`, and a result depends on the operands and on
no flag but C and D (R211). Only add and subtract write V, and the logical operations leave C (R203 to R209, and the
columns of R213, which the spec infers). -/
def Obligations.AluLeavesTheOtherFlags : Prop :=
  ∀ (op : AluOp) (a b b' : Byte) (s u : SR),
    (op.run a b s).2.d = s.d ∧ (op.run a b s).2.i = s.i ∧ (op.run a b s).2.b = s.b ∧
    (op ≠ .add → op ≠ .subtract → (op.run a b s).2.v = s.v) ∧
    (op = .logicalAnd ∨ op = .logicalOr ∨ op = .logicalXor → (op.run a b s).2.c = s.c) ∧
    (op = .shiftRight ∨ op = .shiftLeft ∨ op = .rotateLeft ∨ op = .rotateRight → op.run a b s = op.run a b' s) ∧
    (u.c = s.c → u.d = s.d → (op.run a b u).1 = (op.run a b s).1)

/-- R200, R210: the codes 0 to 8 answer, and the codes 9 to 15 are refused, with no result and no flag effect. The codes are the
spec's own decision D1. -/
def Obligations.AluCodesAnswerOrAreRefused : Prop :=
  ∀ (code : BitVec 4) (a b : Byte) (s : State),
    (code.toNat ≤ 8 → ∃ r sr, aluAnswers code a b s r sr) ∧
    (9 ≤ code.toNat → aluMove code a b s = .refused (.aluOpReserved code))

/-! ### The status register, the port and memory -/

/-- R28: the packed byte has N V - B D I Z C from bit 7 down, bit 5 reads 0 and is ignored on a write, and packing then unpacking
gives the flags back. The positions are the spec's own decision D3. -/
def Obligations.PackedStatusByteLayout : Prop :=
  (∀ s : SR, s.pack.getLsbD 7 = s.n ∧ s.pack.getLsbD 6 = s.v ∧ s.pack.getLsbD 5 = false ∧ s.pack.getLsbD 4 = s.b ∧
    s.pack.getLsbD 3 = s.d ∧ s.pack.getLsbD 2 = s.i ∧ s.pack.getLsbD 1 = s.z ∧ s.pack.getLsbD 0 = s.c) ∧
  (∀ s : SR, SR.unpack s.pack = s) ∧ (∀ v : Byte, (SR.unpack v).pack = v &&& 0xDF)

/-- R30, R31: the register port. A read answers the register's value and changes nothing, or faults when the register holds no value; a
write is accepted for every value, stores it and touches nothing else; SR goes as seven flags, as one of them, or as the packed
byte. That an unwritten register faults is the spec's own decision D4. -/
def Obligations.PortFollowsItsAccessRules : Prop :=
  ∀ s : State,
    (∀ r, s.reg r = none → portMove (.readReg r) s = .fault (.registerNoValue r)) ∧
    (∀ r v, s.reg r = some v →
      portMove (.readReg r) s = .next { s with env := { s.env with reply := some (.byte v) } }) ∧
    portMove .readPC s = .next { s with env := { s.env with reply := some (.word s.pc) } } ∧
    portMove .readSR s = .next { s with env := { s.env with reply := some (.flags s.sr) } } ∧
    portMove .readSRByte s = .next { s with env := { s.env with reply := some (.byte s.sr.pack) } } ∧
    (∀ f, portMove (.readFlag f) s = .next { s with env := { s.env with reply := some (.bit (s.sr.get f)) } }) ∧
    (∀ v, portMove (.writeReg .a v) s = .next { s with a := some v }) ∧
    (∀ v, portMove (.writeReg .x v) s = .next { s with x := some v }) ∧
    (∀ v, portMove (.writeReg .y v) s = .next { s with y := some v }) ∧
    (∀ v, portMove (.writeReg .sp v) s = .next { s with sp := some v }) ∧
    (∀ v, portMove (.writePC v) s = .next { s with pc := v }) ∧
    (∀ v, portMove (.writeSR v) s = .next { s with sr := v }) ∧
    (∀ v, portMove (.writeSRByte v) s = .next { s with sr := SR.unpack v }) ∧
    (∀ f v, ∃ sr, portMove (.writeFlag f v) s = .next { s with sr := sr } ∧
      ∀ g, sr.get g = if g = f then v else s.sr.get g)

/-- R60: a memory read answers the byte stored there, never fails, and changes nothing; the initial contents are MEM0. -/
def Obligations.MemoryReadHasNoSideEffect : Prop :=
  (∀ (s : State) (addr : Word), ∃ t, memReadMove addr s = .next t ∧ t.env.reply = some (.byte (s.mem.read addr)) ∧
    s.sameCore t) ∧ ∀ l : Launch, (State.construct l).mem = l.mem0

/-- R61, R62: a write to an address that some mask covers answers false and changes nothing; any other answers true and stores
the byte there and nowhere else. -/
def Obligations.MemoryWriteFollowsTheMasks : Prop :=
  ∀ (s : State) (addr : Word) (v : Byte), s.mem.wf = true →
    ((∃ m ∈ s.roMasks, addr &&& m = m) →
      memWriteMove addr v s = .next { s with env := { s.env with reply := some (.accepted false) } }) ∧
    ((∀ m ∈ s.roMasks, addr &&& m ≠ m) → ∃ mem,
      memWriteMove addr v s = .next { s with mem := mem, env := { s.env with reply := some (.accepted true) } } ∧
      mem.wf = true ∧ ∀ b, mem.read b = if b = addr then v else s.mem.read b)

/-- R65, which the spec infers from R62: the default masks cover exactly the six addresses of the vectors, each of which occupies its
address and the next (R64); and the parameters of `State.reset` have the values that R7 gives for this hardware, which it marks
as unaudited or general knowledge (assumption log 14). -/
def Obligations.DefaultMasksCoverExactlyTheVectors : Prop :=
  State.reset.params = { freqWindow := 100, resetVec := 0xFFFC, nmiVec := 0xFFFA, irqVec := 0xFFFE } ∧
  ∀ addr : Word, (isReadOnly State.reset.roMasks addr = true ↔ 0xFFFA ≤ addr.toNat) ∧
    (isReadOnly State.reset.roMasks addr = true ↔ ∃ v ∈ State.reset.params.vectors, addr = v ∨ addr = v + 1)

/-- R23: SP wraps modulo 256 downwards and upwards, and the address it names lies in the stack page. -/
def Obligations.StackPointerWrapsInItsPage : Prop :=
  ∀ (s : State) (v : Byte), s.sp = some v →
    s.decSP = { s with sp := some (BitVec.ofNat 8 ((v.toNat + 255) % 256)) } ∧
    s.incSP = { s with sp := some (BitVec.ofNat 8 ((v.toNat + 1) % 256)) } ∧
    (stackAddr v).toNat = 256 + v.toNat

/-- The operand forms of R93, general knowledge by the spec's own mark and used by no rule of the CORE (assumption log
24): an indexed zero-page address wraps in the page, an indexed absolute one in the address space, and the Indirect
pointer's high byte stays in its page. That a mode which reads a register without a value forms none is the model's choice
(assumption log 29). -/
def Obligations.OperandFormsByMode : Prop :=
  ∀ (s : State) (b1 b2 : Byte) (next : Word),
    formOperand .immediate b1 b2 next s = some (.value b1) ∧ formOperand .implicit b1 b2 next s = some .none ∧
    formOperand .accumulator b1 b2 next s = s.a.map Operand.value ∧
    (∃ a, formOperand .zeroPage b1 b2 next s = some (.address a) ∧ a.toNat = b1.toNat) ∧
    (∃ a, formOperand .absolute b1 b2 next s = some (.address a) ∧ a.toNat = 256 * b2.toNat + b1.toNat) ∧
    (∀ x, s.x = some x → (∃ a, formOperand .zeroPageX b1 b2 next s = some (.address a) ∧
        a.toNat = (b1.toNat + x.toNat) % 256) ∧
      (∃ a, formOperand .absoluteX b1 b2 next s = some (.address a) ∧
        a.toNat = (256 * b2.toNat + b1.toNat + x.toNat) % 65536) ∧
      formOperand .indexedIndirect b1 b2 next s = some (.address
        (s.mem.read ((0 : Byte) ++ (b1 + x + 1)) ++ s.mem.read ((0 : Byte) ++ (b1 + x))))) ∧
    (∀ y, s.y = some y → (∃ a, formOperand .zeroPageY b1 b2 next s = some (.address a) ∧
        a.toNat = (b1.toNat + y.toNat) % 256) ∧
      (∃ a, formOperand .absoluteY b1 b2 next s = some (.address a) ∧
        a.toNat = (256 * b2.toNat + b1.toNat + y.toNat) % 65536) ∧
      formOperand .indirectIndexed b1 b2 next s = some (.address
        (s.mem.read ((0 : Byte) ++ (b1 + 1)) ++ s.mem.read ((0 : Byte) ++ b1) + y.setWidth 16))) ∧
    formOperand .indirect b1 b2 next s = some (.address (s.mem.read (b2 ++ (b1 + 1)) ++ s.mem.read (b2 ++ b1))) ∧
    (∃ a, formOperand .relative b1 b2 next s = some (.target a) ∧ (a.toNat : Int) = (next.toNat + b1.toInt) % 65536) ∧
    (s.x = none → formOperand .zeroPageX b1 b2 next s = none ∧ formOperand .absoluteX b1 b2 next s = none ∧
      formOperand .indexedIndirect b1 b2 next s = none) ∧
    (s.y = none → formOperand .zeroPageY b1 b2 next s = none ∧ formOperand .absoluteY b1 b2 next s = none ∧
      formOperand .indirectIndexed b1 b2 next s = none)
end

