-- ==== Sys2Proof/Laws/Decode.lean ====
section
/-! SUPPORT. What the decoder and the encoder do, once each, over the 256 opcode bytes. -/

namespace Sys2Proof

set_option maxRecDepth 20000 in
/-- The decoder gives None exactly on the illegal opcodes of R100. -/
theorem decodeByte_eq_none_iff : ∀ op : Byte, decodeByte op = none ↔ isIllegalOpcode op = true := by decide +kernel

set_option maxRecDepth 20000 in
/-- The operand lists of R130 to R185 and the opcode map of R96 agree on every byte. -/
theorem opcodeOf_decodeByte : ∀ op : Byte, ∀ f, decodeByte op = some f → opcodeOf f.1 f.2 = some op := by
  have h : ∀ op : Byte, ((decodeByte op).all fun f => opcodeOf f.1 f.2 == some op) = true := by decide +kernel
  intro op f hf
  simpa [hf] using h op

/-- Every opcode of an operand list decodes back to its mnemonic and mode. -/
theorem decodeByte_of_mem_forms (k : Mnemonic) (m : AddrMode) (op : Byte) (h : (m, op) ∈ k.forms) :
    decodeByte op = some (k, m) := by
  have all : ∀ k : Mnemonic, (k.forms.all fun f => decodeByte f.2 == some (k, f.1)) = true := by
    intro k; cases k <;> decide +kernel
  simpa using (List.all_eq_true.mp (all k)) (m, op) h

theorem Instr.form_ofForm (k : Mnemonic) (m : AddrMode) (h : (opcodeOf k m).isSome = true) :
    (Instr.ofForm k m).form = some (k, m) := by
  cases k <;> cases m <;> first | rfl | exact absurd h (by decide)

theorem Instr.ofForm_form (i : Instr) (k : Mnemonic) (m : AddrMode) (h : i.form = some (k, m)) :
    Instr.ofForm k m = i := by
  cases i <;> simp [Instr.form] at h <;> obtain ⟨rfl, rfl⟩ := h <;> rfl

theorem decodeInstr_of_decodeByte {op : Byte} {k : Mnemonic} {m : AddrMode} (h : decodeByte op = some (k, m)) :
    decodeInstr op = .ofForm k m := by simp [decodeInstr, h]

theorem decodeInstr_of_illegal {op : Byte} (h : decodeByte op = none) : decodeInstr op = .illegal op := by
  simp [decodeInstr, h]

/-- The byte of an instruction that is a row of the table, by the row's mnemonic and mode. -/
theorem encode_of_form {i : Instr} {k : Mnemonic} {m : AddrMode} (h : i.form = some (k, m)) :
    encode i = opcodeOf k m := by
  cases i <;> simp [Instr.form] at h <;> obtain ⟨rfl, rfl⟩ := h <;> rfl

/-- `lookup` in an operand list finds only its entries. -/
theorem mem_forms_of_opcodeOf {k : Mnemonic} {m : AddrMode} {op : Byte} (h : opcodeOf k m = some op) :
    (m, op) ∈ k.forms := by
  have find : ∀ l : List (AddrMode × Byte), l.lookup m = some op → (m, op) ∈ l := by
    intro l
    induction l with
    | nil => simp
    | cons p l ih =>
      intro hl
      by_cases e : m = p.1
      · have hb : (m == p.1) = true := by simpa using e
        rw [List.lookup_cons, hb] at hl
        exact List.mem_cons.mpr (.inl (Prod.ext e (Option.some.inj hl).symm))
      · rw [List.lookup_cons] at hl
        have : (m == p.1) = false := by simpa using e
        rw [this] at hl
        exact List.mem_cons_of_mem _ (ih hl)
  exact find _ h

end Sys2Proof
end

