-- ==== Sys2Proof/Laws/Memory.lean ====
section
/-! SUPPORT. The laws of memory: a read after a write, and that every memory operation keeps the canonical form. -/

namespace Sys2Proof.Machine

/-- Below its first key a canonical memory lists nothing. -/
theorem Mem.readAt_below (m : Mem) (lo b : Nat) (h : Mem.wfFrom lo m = true) (hb : b < lo) :
    m.readAt b = unlistedByte := by
  induction m generalizing lo with
  | nil => rfl
  | cons p rest ih =>
    simp only [Mem.wfFrom, Bool.and_eq_true, decide_eq_true_eq] at h
    have : p.1 ≠ b := by omega
    simpa [Mem.readAt, this] using ih _ h.2 (by omega)

theorem Mem.readAt_setAt (m : Mem) (a b : Nat) (v : Byte) (lo : Nat) (h : Mem.wfFrom lo m = true) :
    (m.setAt a v).readAt b = if a = b then v else m.readAt b := by
  induction m generalizing lo with
  | nil => by_cases hv : v = unlistedByte <;> by_cases hb : a = b <;> simp [Mem.setAt, Mem.readAt, hv, hb]
  | cons p rest ih =>
    obtain ⟨k, w⟩ := p
    simp only [Mem.wfFrom, Bool.and_eq_true, decide_eq_true_eq] at h
    unfold Mem.setAt
    split
    · next hk =>
      subst hk
      have := Mem.readAt_below rest (k + 1) k h.2 (by omega)
      by_cases hv : v = unlistedByte <;> by_cases hb : k = b
      · subst hb; simp [hv, this]
      · simp [Mem.readAt, hv, hb]
      · simp [Mem.readAt, hv, hb]
      · simp [Mem.readAt, hv, hb]
    · split
      · next hk hlt =>
        have := Mem.readAt_below ((k, w) :: rest) k a (by simp [Mem.wfFrom, h.1, h.2]) hlt
        by_cases hv : v = unlistedByte <;> by_cases hb : a = b
        · subst hb; simp [hv, this]
        · simp [hv, hb]
        · simp [Mem.readAt, hv, hb]
        · simp [Mem.readAt, hv, hb]
      · next hk hlt =>
        by_cases hb : k = b
        · subst hb; simp [Mem.readAt, Ne.symm hk]
        · simp [Mem.readAt, hb, ih _ h.2]

theorem Mem.wfFrom_weaken {lo lo' : Nat} (m : Mem) (hle : lo' ≤ lo) (h : Mem.wfFrom lo m = true) :
    Mem.wfFrom lo' m = true := by
  cases m with
  | nil => rfl
  | cons p rest =>
    simp only [Mem.wfFrom, Bool.and_eq_true, decide_eq_true_eq] at h ⊢
    exact ⟨⟨⟨by omega, h.1.1.2⟩, h.1.2⟩, h.2⟩

theorem Mem.setAt_wfFrom (m : Mem) (lo a : Nat) (v : Byte) (hlo : lo ≤ a) (ha : a < 65536)
    (h : Mem.wfFrom lo m = true) : Mem.wfFrom lo (m.setAt a v) = true := by
  induction m generalizing lo with
  | nil => by_cases hv : v = unlistedByte <;> simp [Mem.setAt, Mem.wfFrom, hv, hlo, ha]
  | cons p rest ih =>
    obtain ⟨k, w⟩ := p
    simp only [Mem.wfFrom, Bool.and_eq_true, decide_eq_true_eq] at h
    unfold Mem.setAt
    split
    · next hk =>
      subst hk
      by_cases hv : v = unlistedByte
      · simpa [hv] using Mem.wfFrom_weaken rest (by omega) h.2
      · simp [hv, Mem.wfFrom, h]
    · split
      · next hk hlt =>
        by_cases hv : v = unlistedByte <;> simp [hv, Mem.wfFrom, h, hlo, ha, Nat.succ_le_of_lt hlt]
      · next hk hlt =>
        have := ih (k + 1) (by omega) h.2
        simp only [Mem.wfFrom, Bool.and_eq_true, decide_eq_true_eq]
        exact ⟨h.1, this⟩

/-- A read after a write gives the byte written there, and what was there before anywhere else (R61, R71). -/
theorem Mem.read_set (m : Mem) (a b : Word) (v : Byte) (h : m.wf = true) :
    (m.set a v).read b = if a = b then v else m.read b := by
  have := Mem.readAt_setAt m a.toNat b.toNat v 0 h
  simpa [Mem.read, Mem.set, BitVec.toNat_inj] using this

theorem Mem.set_wf (m : Mem) (a : Word) (v : Byte) (h : m.wf = true) : (m.set a v).wf = true :=
  Mem.setAt_wfFrom m 0 a.toNat v (Nat.zero_le _) a.isLt h

theorem Mem.place_wf (bytes : List Byte) (m : Mem) (a : Word) (h : m.wf = true) : (m.place a bytes).wf = true := by
  induction bytes generalizing m a with
  | nil => exact h
  | cons v rest ih => exact ih _ _ (Mem.set_wf m a v h)

theorem State.memWrite_wf (s : State) (a : Word) (v : Byte) (h : s.mem.wf = true) :
    (s.memWrite a v).1.mem.wf = true := by
  unfold State.memWrite
  split
  · exact h
  · exact Mem.set_wf s.mem a v h

theorem reset_mem_wf : State.reset.mem.wf = true := rfl

end Sys2Proof.Machine
end

