-- ==== Sys2Proof/Laws/State.lean ====
section
/-! SUPPORT. One lemma a field for each update of the state, so that no later proof unfolds a record update. -/

namespace Sys2Proof.Machine

variable (s : State)

/-! ### Recording an answer -/

@[simp] theorem State.answer_pc (r : Reply) : (s.answer r).pc = s.pc := rfl
@[simp] theorem State.answer_a (r : Reply) : (s.answer r).a = s.a := rfl
@[simp] theorem State.answer_x (r : Reply) : (s.answer r).x = s.x := rfl
@[simp] theorem State.answer_y (r : Reply) : (s.answer r).y = s.y := rfl
@[simp] theorem State.answer_sp (r : Reply) : (s.answer r).sp = s.sp := rfl
@[simp] theorem State.answer_sr (r : Reply) : (s.answer r).sr = s.sr := rfl
@[simp] theorem State.answer_phase (r : Reply) : (s.answer r).phase = s.phase := rfl
@[simp] theorem State.answer_inWait (r : Reply) : (s.answer r).inWait = s.inWait := rfl
@[simp] theorem State.answer_term (r : Reply) : (s.answer r).term = s.term := rfl
@[simp] theorem State.answer_cycles (r : Reply) : (s.answer r).cycles = s.cycles := rfl
@[simp] theorem State.answer_freq (r : Reply) : (s.answer r).freq = s.freq := rfl
@[simp] theorem State.answer_mark (r : Reply) : (s.answer r).mark = s.mark := rfl
@[simp] theorem State.answer_fetched (r : Reply) : (s.answer r).fetched = s.fetched := rfl
@[simp] theorem State.answer_mem (r : Reply) : (s.answer r).mem = s.mem := rfl
@[simp] theorem State.answer_roMasks (r : Reply) : (s.answer r).roMasks = s.roMasks := rfl
@[simp] theorem State.answer_params (r : Reply) : (s.answer r).params = s.params := rfl
@[simp] theorem State.answer_env_inputs (r : Reply) : (s.answer r).env.inputs = s.env.inputs := rfl
@[simp] theorem State.answer_env_clock (r : Reply) : (s.answer r).env.clock = s.env.clock := rfl
@[simp] theorem State.answer_env_draws (r : Reply) : (s.answer r).env.draws = s.env.draws := rfl
@[simp] theorem State.answer_env_bus (r : Reply) : (s.answer r).env.bus = s.env.bus := rfl
@[simp] theorem State.answer_env_reply (r : Reply) : (s.answer r).env.reply = some r := rfl

/-! ### Recording a bus read -/

@[simp] theorem State.strobe_pc (addr : Word) : (s.strobe addr).pc = s.pc := rfl
@[simp] theorem State.strobe_a (addr : Word) : (s.strobe addr).a = s.a := rfl
@[simp] theorem State.strobe_x (addr : Word) : (s.strobe addr).x = s.x := rfl
@[simp] theorem State.strobe_y (addr : Word) : (s.strobe addr).y = s.y := rfl
@[simp] theorem State.strobe_sp (addr : Word) : (s.strobe addr).sp = s.sp := rfl
@[simp] theorem State.strobe_sr (addr : Word) : (s.strobe addr).sr = s.sr := rfl
@[simp] theorem State.strobe_phase (addr : Word) : (s.strobe addr).phase = s.phase := rfl
@[simp] theorem State.strobe_inWait (addr : Word) : (s.strobe addr).inWait = s.inWait := rfl
@[simp] theorem State.strobe_term (addr : Word) : (s.strobe addr).term = s.term := rfl
@[simp] theorem State.strobe_cycles (addr : Word) : (s.strobe addr).cycles = s.cycles := rfl
@[simp] theorem State.strobe_freq (addr : Word) : (s.strobe addr).freq = s.freq := rfl
@[simp] theorem State.strobe_mark (addr : Word) : (s.strobe addr).mark = s.mark := rfl
@[simp] theorem State.strobe_fetched (addr : Word) : (s.strobe addr).fetched = s.fetched := rfl
@[simp] theorem State.strobe_mem (addr : Word) : (s.strobe addr).mem = s.mem := rfl
@[simp] theorem State.strobe_roMasks (addr : Word) : (s.strobe addr).roMasks = s.roMasks := rfl
@[simp] theorem State.strobe_params (addr : Word) : (s.strobe addr).params = s.params := rfl
@[simp] theorem State.strobe_env_inputs (addr : Word) : (s.strobe addr).env.inputs = s.env.inputs := rfl
@[simp] theorem State.strobe_env_clock (addr : Word) : (s.strobe addr).env.clock = s.env.clock := rfl
@[simp] theorem State.strobe_env_draws (addr : Word) : (s.strobe addr).env.draws = s.env.draws := rfl
@[simp] theorem State.strobe_env_bus (addr : Word) : (s.strobe addr).env.bus = some { addr := addr, data := s.mem.read addr } := rfl
@[simp] theorem State.strobe_env_reply (addr : Word) : (s.strobe addr).env.reply = s.env.reply := rfl

/-! ### Taking the next move -/

@[simp] theorem State.takeEvent_pc : (s.takeEvent).pc = s.pc := rfl
@[simp] theorem State.takeEvent_a : (s.takeEvent).a = s.a := rfl
@[simp] theorem State.takeEvent_x : (s.takeEvent).x = s.x := rfl
@[simp] theorem State.takeEvent_y : (s.takeEvent).y = s.y := rfl
@[simp] theorem State.takeEvent_sp : (s.takeEvent).sp = s.sp := rfl
@[simp] theorem State.takeEvent_sr : (s.takeEvent).sr = s.sr := rfl
@[simp] theorem State.takeEvent_phase : (s.takeEvent).phase = s.phase := rfl
@[simp] theorem State.takeEvent_inWait : (s.takeEvent).inWait = s.inWait := rfl
@[simp] theorem State.takeEvent_term : (s.takeEvent).term = s.term := rfl
@[simp] theorem State.takeEvent_cycles : (s.takeEvent).cycles = s.cycles := rfl
@[simp] theorem State.takeEvent_freq : (s.takeEvent).freq = s.freq := rfl
@[simp] theorem State.takeEvent_mark : (s.takeEvent).mark = s.mark := rfl
@[simp] theorem State.takeEvent_fetched : (s.takeEvent).fetched = s.fetched := rfl
@[simp] theorem State.takeEvent_mem : (s.takeEvent).mem = s.mem := rfl
@[simp] theorem State.takeEvent_roMasks : (s.takeEvent).roMasks = s.roMasks := rfl
@[simp] theorem State.takeEvent_params : (s.takeEvent).params = s.params := rfl
@[simp] theorem State.takeEvent_env_inputs : (s.takeEvent).env.inputs = s.env.inputs.tail := rfl
@[simp] theorem State.takeEvent_env_clock : (s.takeEvent).env.clock = s.env.clock := rfl
@[simp] theorem State.takeEvent_env_draws : (s.takeEvent).env.draws = if s.env.inputs.isEmpty then s.env.draws + 1 else s.env.draws := rfl
@[simp] theorem State.takeEvent_env_bus : (s.takeEvent).env.bus = none := rfl
@[simp] theorem State.takeEvent_env_reply : (s.takeEvent).env.reply = none := rfl

/-! ### A wall-clock draw -/

@[simp] theorem State.observe_pc (now : Time) : (s.observe now).pc = s.pc := rfl
@[simp] theorem State.observe_a (now : Time) : (s.observe now).a = s.a := rfl
@[simp] theorem State.observe_x (now : Time) : (s.observe now).x = s.x := rfl
@[simp] theorem State.observe_y (now : Time) : (s.observe now).y = s.y := rfl
@[simp] theorem State.observe_sp (now : Time) : (s.observe now).sp = s.sp := rfl
@[simp] theorem State.observe_sr (now : Time) : (s.observe now).sr = s.sr := rfl
@[simp] theorem State.observe_phase (now : Time) : (s.observe now).phase = s.phase := rfl
@[simp] theorem State.observe_inWait (now : Time) : (s.observe now).inWait = s.inWait := rfl
@[simp] theorem State.observe_term (now : Time) : (s.observe now).term = s.term := rfl
@[simp] theorem State.observe_cycles (now : Time) : (s.observe now).cycles = s.cycles := rfl
@[simp] theorem State.observe_freq (now : Time) : (s.observe now).freq = s.freq := rfl
@[simp] theorem State.observe_mark (now : Time) : (s.observe now).mark = s.mark := rfl
@[simp] theorem State.observe_fetched (now : Time) : (s.observe now).fetched = s.fetched := rfl
@[simp] theorem State.observe_mem (now : Time) : (s.observe now).mem = s.mem := rfl
@[simp] theorem State.observe_roMasks (now : Time) : (s.observe now).roMasks = s.roMasks := rfl
@[simp] theorem State.observe_params (now : Time) : (s.observe now).params = s.params := rfl
@[simp] theorem State.observe_env_inputs (now : Time) : (s.observe now).env.inputs = s.env.inputs := rfl
@[simp] theorem State.observe_env_clock (now : Time) : (s.observe now).env.clock = if s.env.clock < now then now else s.env.clock := rfl
@[simp] theorem State.observe_env_draws (now : Time) : (s.observe now).env.draws = s.env.draws := rfl
@[simp] theorem State.observe_env_bus (now : Time) : (s.observe now).env.bus = s.env.bus := rfl
@[simp] theorem State.observe_env_reply (now : Time) : (s.observe now).env.reply = s.env.reply := rfl

/-! ### Fetching a byte -/

@[simp] theorem State.fetchByte_pc (op : Byte) : (s.fetchByte op).pc = s.pc + 1 := rfl
@[simp] theorem State.fetchByte_a (op : Byte) : (s.fetchByte op).a = s.a := rfl
@[simp] theorem State.fetchByte_x (op : Byte) : (s.fetchByte op).x = s.x := rfl
@[simp] theorem State.fetchByte_y (op : Byte) : (s.fetchByte op).y = s.y := rfl
@[simp] theorem State.fetchByte_sp (op : Byte) : (s.fetchByte op).sp = s.sp := rfl
@[simp] theorem State.fetchByte_sr (op : Byte) : (s.fetchByte op).sr = s.sr := rfl
@[simp] theorem State.fetchByte_phase (op : Byte) : (s.fetchByte op).phase = s.phase := rfl
@[simp] theorem State.fetchByte_inWait (op : Byte) : (s.fetchByte op).inWait = false := rfl
@[simp] theorem State.fetchByte_term (op : Byte) : (s.fetchByte op).term = s.term := rfl
@[simp] theorem State.fetchByte_cycles (op : Byte) : (s.fetchByte op).cycles = s.cycles + 1 := rfl
@[simp] theorem State.fetchByte_freq (op : Byte) : (s.fetchByte op).freq = s.freq := rfl
@[simp] theorem State.fetchByte_mark (op : Byte) : (s.fetchByte op).mark = s.mark := rfl
@[simp] theorem State.fetchByte_fetched (op : Byte) : (s.fetchByte op).fetched = some op := rfl
@[simp] theorem State.fetchByte_mem (op : Byte) : (s.fetchByte op).mem = s.mem := rfl
@[simp] theorem State.fetchByte_roMasks (op : Byte) : (s.fetchByte op).roMasks = s.roMasks := rfl
@[simp] theorem State.fetchByte_params (op : Byte) : (s.fetchByte op).params = s.params := rfl
@[simp] theorem State.fetchByte_env_inputs (op : Byte) : (s.fetchByte op).env.inputs = s.env.inputs := rfl
@[simp] theorem State.fetchByte_env_clock (op : Byte) : (s.fetchByte op).env.clock = s.env.clock := rfl
@[simp] theorem State.fetchByte_env_draws (op : Byte) : (s.fetchByte op).env.draws = s.env.draws := rfl
@[simp] theorem State.fetchByte_env_bus (op : Byte) : (s.fetchByte op).env.bus = some { addr := s.pc, data := op } := rfl
@[simp] theorem State.fetchByte_env_reply (op : Byte) : (s.fetchByte op).env.reply = s.env.reply := rfl

/-! ### The stack pointer -/

@[simp] theorem State.decSP_pc : (s.decSP).pc = s.pc := rfl
@[simp] theorem State.decSP_a : (s.decSP).a = s.a := rfl
@[simp] theorem State.decSP_x : (s.decSP).x = s.x := rfl
@[simp] theorem State.decSP_y : (s.decSP).y = s.y := rfl
@[simp] theorem State.decSP_sp : (s.decSP).sp = s.sp.map fun v => v - 1 := rfl
@[simp] theorem State.decSP_sr : (s.decSP).sr = s.sr := rfl
@[simp] theorem State.decSP_phase : (s.decSP).phase = s.phase := rfl
@[simp] theorem State.decSP_inWait : (s.decSP).inWait = s.inWait := rfl
@[simp] theorem State.decSP_term : (s.decSP).term = s.term := rfl
@[simp] theorem State.decSP_cycles : (s.decSP).cycles = s.cycles := rfl
@[simp] theorem State.decSP_freq : (s.decSP).freq = s.freq := rfl
@[simp] theorem State.decSP_mark : (s.decSP).mark = s.mark := rfl
@[simp] theorem State.decSP_fetched : (s.decSP).fetched = s.fetched := rfl
@[simp] theorem State.decSP_mem : (s.decSP).mem = s.mem := rfl
@[simp] theorem State.decSP_roMasks : (s.decSP).roMasks = s.roMasks := rfl
@[simp] theorem State.decSP_params : (s.decSP).params = s.params := rfl
@[simp] theorem State.decSP_env : (s.decSP).env = s.env := rfl

/-! ### The stack pointer, upwards -/

@[simp] theorem State.incSP_pc : (s.incSP).pc = s.pc := rfl
@[simp] theorem State.incSP_a : (s.incSP).a = s.a := rfl
@[simp] theorem State.incSP_x : (s.incSP).x = s.x := rfl
@[simp] theorem State.incSP_y : (s.incSP).y = s.y := rfl
@[simp] theorem State.incSP_sp : (s.incSP).sp = s.sp.map fun v => v + 1 := rfl
@[simp] theorem State.incSP_sr : (s.incSP).sr = s.sr := rfl
@[simp] theorem State.incSP_phase : (s.incSP).phase = s.phase := rfl
@[simp] theorem State.incSP_inWait : (s.incSP).inWait = s.inWait := rfl
@[simp] theorem State.incSP_term : (s.incSP).term = s.term := rfl
@[simp] theorem State.incSP_cycles : (s.incSP).cycles = s.cycles := rfl
@[simp] theorem State.incSP_freq : (s.incSP).freq = s.freq := rfl
@[simp] theorem State.incSP_mark : (s.incSP).mark = s.mark := rfl
@[simp] theorem State.incSP_fetched : (s.incSP).fetched = s.fetched := rfl
@[simp] theorem State.incSP_mem : (s.incSP).mem = s.mem := rfl
@[simp] theorem State.incSP_roMasks : (s.incSP).roMasks = s.roMasks := rfl
@[simp] theorem State.incSP_params : (s.incSP).params = s.params := rfl
@[simp] theorem State.incSP_env : (s.incSP).env = s.env := rfl

/-! ### Storing register a -/

@[simp] theorem State.setReg_a_pc (v : Byte) : (s.setReg .a v).pc = s.pc := rfl
@[simp] theorem State.setReg_a_a (v : Byte) : (s.setReg .a v).a = some v := rfl
@[simp] theorem State.setReg_a_x (v : Byte) : (s.setReg .a v).x = s.x := rfl
@[simp] theorem State.setReg_a_y (v : Byte) : (s.setReg .a v).y = s.y := rfl
@[simp] theorem State.setReg_a_sp (v : Byte) : (s.setReg .a v).sp = s.sp := rfl
@[simp] theorem State.setReg_a_sr (v : Byte) : (s.setReg .a v).sr = s.sr := rfl
@[simp] theorem State.setReg_a_phase (v : Byte) : (s.setReg .a v).phase = s.phase := rfl
@[simp] theorem State.setReg_a_inWait (v : Byte) : (s.setReg .a v).inWait = s.inWait := rfl
@[simp] theorem State.setReg_a_term (v : Byte) : (s.setReg .a v).term = s.term := rfl
@[simp] theorem State.setReg_a_cycles (v : Byte) : (s.setReg .a v).cycles = s.cycles := rfl
@[simp] theorem State.setReg_a_freq (v : Byte) : (s.setReg .a v).freq = s.freq := rfl
@[simp] theorem State.setReg_a_mark (v : Byte) : (s.setReg .a v).mark = s.mark := rfl
@[simp] theorem State.setReg_a_fetched (v : Byte) : (s.setReg .a v).fetched = s.fetched := rfl
@[simp] theorem State.setReg_a_mem (v : Byte) : (s.setReg .a v).mem = s.mem := rfl
@[simp] theorem State.setReg_a_roMasks (v : Byte) : (s.setReg .a v).roMasks = s.roMasks := rfl
@[simp] theorem State.setReg_a_params (v : Byte) : (s.setReg .a v).params = s.params := rfl
@[simp] theorem State.setReg_a_env (v : Byte) : (s.setReg .a v).env = s.env := rfl

/-! ### Storing register x -/

@[simp] theorem State.setReg_x_pc (v : Byte) : (s.setReg .x v).pc = s.pc := rfl
@[simp] theorem State.setReg_x_a (v : Byte) : (s.setReg .x v).a = s.a := rfl
@[simp] theorem State.setReg_x_x (v : Byte) : (s.setReg .x v).x = some v := rfl
@[simp] theorem State.setReg_x_y (v : Byte) : (s.setReg .x v).y = s.y := rfl
@[simp] theorem State.setReg_x_sp (v : Byte) : (s.setReg .x v).sp = s.sp := rfl
@[simp] theorem State.setReg_x_sr (v : Byte) : (s.setReg .x v).sr = s.sr := rfl
@[simp] theorem State.setReg_x_phase (v : Byte) : (s.setReg .x v).phase = s.phase := rfl
@[simp] theorem State.setReg_x_inWait (v : Byte) : (s.setReg .x v).inWait = s.inWait := rfl
@[simp] theorem State.setReg_x_term (v : Byte) : (s.setReg .x v).term = s.term := rfl
@[simp] theorem State.setReg_x_cycles (v : Byte) : (s.setReg .x v).cycles = s.cycles := rfl
@[simp] theorem State.setReg_x_freq (v : Byte) : (s.setReg .x v).freq = s.freq := rfl
@[simp] theorem State.setReg_x_mark (v : Byte) : (s.setReg .x v).mark = s.mark := rfl
@[simp] theorem State.setReg_x_fetched (v : Byte) : (s.setReg .x v).fetched = s.fetched := rfl
@[simp] theorem State.setReg_x_mem (v : Byte) : (s.setReg .x v).mem = s.mem := rfl
@[simp] theorem State.setReg_x_roMasks (v : Byte) : (s.setReg .x v).roMasks = s.roMasks := rfl
@[simp] theorem State.setReg_x_params (v : Byte) : (s.setReg .x v).params = s.params := rfl
@[simp] theorem State.setReg_x_env (v : Byte) : (s.setReg .x v).env = s.env := rfl

/-! ### Storing register y -/

@[simp] theorem State.setReg_y_pc (v : Byte) : (s.setReg .y v).pc = s.pc := rfl
@[simp] theorem State.setReg_y_a (v : Byte) : (s.setReg .y v).a = s.a := rfl
@[simp] theorem State.setReg_y_x (v : Byte) : (s.setReg .y v).x = s.x := rfl
@[simp] theorem State.setReg_y_y (v : Byte) : (s.setReg .y v).y = some v := rfl
@[simp] theorem State.setReg_y_sp (v : Byte) : (s.setReg .y v).sp = s.sp := rfl
@[simp] theorem State.setReg_y_sr (v : Byte) : (s.setReg .y v).sr = s.sr := rfl
@[simp] theorem State.setReg_y_phase (v : Byte) : (s.setReg .y v).phase = s.phase := rfl
@[simp] theorem State.setReg_y_inWait (v : Byte) : (s.setReg .y v).inWait = s.inWait := rfl
@[simp] theorem State.setReg_y_term (v : Byte) : (s.setReg .y v).term = s.term := rfl
@[simp] theorem State.setReg_y_cycles (v : Byte) : (s.setReg .y v).cycles = s.cycles := rfl
@[simp] theorem State.setReg_y_freq (v : Byte) : (s.setReg .y v).freq = s.freq := rfl
@[simp] theorem State.setReg_y_mark (v : Byte) : (s.setReg .y v).mark = s.mark := rfl
@[simp] theorem State.setReg_y_fetched (v : Byte) : (s.setReg .y v).fetched = s.fetched := rfl
@[simp] theorem State.setReg_y_mem (v : Byte) : (s.setReg .y v).mem = s.mem := rfl
@[simp] theorem State.setReg_y_roMasks (v : Byte) : (s.setReg .y v).roMasks = s.roMasks := rfl
@[simp] theorem State.setReg_y_params (v : Byte) : (s.setReg .y v).params = s.params := rfl
@[simp] theorem State.setReg_y_env (v : Byte) : (s.setReg .y v).env = s.env := rfl

/-! ### Storing register sp -/

@[simp] theorem State.setReg_sp_pc (v : Byte) : (s.setReg .sp v).pc = s.pc := rfl
@[simp] theorem State.setReg_sp_a (v : Byte) : (s.setReg .sp v).a = s.a := rfl
@[simp] theorem State.setReg_sp_x (v : Byte) : (s.setReg .sp v).x = s.x := rfl
@[simp] theorem State.setReg_sp_y (v : Byte) : (s.setReg .sp v).y = s.y := rfl
@[simp] theorem State.setReg_sp_sp (v : Byte) : (s.setReg .sp v).sp = some v := rfl
@[simp] theorem State.setReg_sp_sr (v : Byte) : (s.setReg .sp v).sr = s.sr := rfl
@[simp] theorem State.setReg_sp_phase (v : Byte) : (s.setReg .sp v).phase = s.phase := rfl
@[simp] theorem State.setReg_sp_inWait (v : Byte) : (s.setReg .sp v).inWait = s.inWait := rfl
@[simp] theorem State.setReg_sp_term (v : Byte) : (s.setReg .sp v).term = s.term := rfl
@[simp] theorem State.setReg_sp_cycles (v : Byte) : (s.setReg .sp v).cycles = s.cycles := rfl
@[simp] theorem State.setReg_sp_freq (v : Byte) : (s.setReg .sp v).freq = s.freq := rfl
@[simp] theorem State.setReg_sp_mark (v : Byte) : (s.setReg .sp v).mark = s.mark := rfl
@[simp] theorem State.setReg_sp_fetched (v : Byte) : (s.setReg .sp v).fetched = s.fetched := rfl
@[simp] theorem State.setReg_sp_mem (v : Byte) : (s.setReg .sp v).mem = s.mem := rfl
@[simp] theorem State.setReg_sp_roMasks (v : Byte) : (s.setReg .sp v).roMasks = s.roMasks := rfl
@[simp] theorem State.setReg_sp_params (v : Byte) : (s.setReg .sp v).params = s.params := rfl
@[simp] theorem State.setReg_sp_env (v : Byte) : (s.setReg .sp v).env = s.env := rfl

/-! ### The instruction placed for the next step -/

@[simp] theorem State.readyToFetch_pc (bs : List Byte) : (s.readyToFetch bs).pc = s.pc := rfl
@[simp] theorem State.readyToFetch_a (bs : List Byte) : (s.readyToFetch bs).a = s.a := rfl
@[simp] theorem State.readyToFetch_x (bs : List Byte) : (s.readyToFetch bs).x = s.x := rfl
@[simp] theorem State.readyToFetch_y (bs : List Byte) : (s.readyToFetch bs).y = s.y := rfl
@[simp] theorem State.readyToFetch_sp (bs : List Byte) : (s.readyToFetch bs).sp = s.sp := rfl
@[simp] theorem State.readyToFetch_sr (bs : List Byte) : (s.readyToFetch bs).sr = s.sr := rfl
@[simp] theorem State.readyToFetch_phase (bs : List Byte) : (s.readyToFetch bs).phase = .running := rfl
@[simp] theorem State.readyToFetch_inWait (bs : List Byte) : (s.readyToFetch bs).inWait = true := rfl
@[simp] theorem State.readyToFetch_term (bs : List Byte) : (s.readyToFetch bs).term = s.term := rfl
@[simp] theorem State.readyToFetch_cycles (bs : List Byte) : (s.readyToFetch bs).cycles = s.cycles := rfl
@[simp] theorem State.readyToFetch_freq (bs : List Byte) : (s.readyToFetch bs).freq = s.freq := rfl
@[simp] theorem State.readyToFetch_mark (bs : List Byte) : (s.readyToFetch bs).mark = s.mark := rfl
@[simp] theorem State.readyToFetch_fetched (bs : List Byte) : (s.readyToFetch bs).fetched = s.fetched := rfl
@[simp] theorem State.readyToFetch_mem (bs : List Byte) : (s.readyToFetch bs).mem = s.mem.place s.pc bs := rfl
@[simp] theorem State.readyToFetch_roMasks (bs : List Byte) : (s.readyToFetch bs).roMasks = s.roMasks := rfl
@[simp] theorem State.readyToFetch_params (bs : List Byte) : (s.readyToFetch bs).params = s.params := rfl
@[simp] theorem State.readyToFetch_env_inputs (bs : List Byte) : (s.readyToFetch bs).env.inputs = .turn true s.env.clock :: s.env.inputs := rfl
@[simp] theorem State.readyToFetch_env_clock (bs : List Byte) : (s.readyToFetch bs).env.clock = s.env.clock := rfl
@[simp] theorem State.readyToFetch_env_draws (bs : List Byte) : (s.readyToFetch bs).env.draws = s.env.draws := rfl
@[simp] theorem State.readyToFetch_env_bus (bs : List Byte) : (s.readyToFetch bs).env.bus = s.env.bus := rfl
@[simp] theorem State.readyToFetch_env_reply (bs : List Byte) : (s.readyToFetch bs).env.reply = s.env.reply := rfl

/-! ### Storing any 8-bit register: what it leaves -/

@[simp] theorem State.setReg_keeps_pc (r : Reg8) (v : Byte) : (s.setReg r v).pc = s.pc := by cases r <;> rfl
@[simp] theorem State.setReg_keeps_sr (r : Reg8) (v : Byte) : (s.setReg r v).sr = s.sr := by cases r <;> rfl
@[simp] theorem State.setReg_keeps_phase (r : Reg8) (v : Byte) : (s.setReg r v).phase = s.phase := by cases r <;> rfl
@[simp] theorem State.setReg_keeps_inWait (r : Reg8) (v : Byte) : (s.setReg r v).inWait = s.inWait := by cases r <;> rfl
@[simp] theorem State.setReg_keeps_term (r : Reg8) (v : Byte) : (s.setReg r v).term = s.term := by cases r <;> rfl
@[simp] theorem State.setReg_keeps_cycles (r : Reg8) (v : Byte) : (s.setReg r v).cycles = s.cycles := by cases r <;> rfl
@[simp] theorem State.setReg_keeps_freq (r : Reg8) (v : Byte) : (s.setReg r v).freq = s.freq := by cases r <;> rfl
@[simp] theorem State.setReg_keeps_mark (r : Reg8) (v : Byte) : (s.setReg r v).mark = s.mark := by cases r <;> rfl
@[simp] theorem State.setReg_keeps_fetched (r : Reg8) (v : Byte) : (s.setReg r v).fetched = s.fetched := by cases r <;> rfl
@[simp] theorem State.setReg_keeps_mem (r : Reg8) (v : Byte) : (s.setReg r v).mem = s.mem := by cases r <;> rfl
@[simp] theorem State.setReg_keeps_roMasks (r : Reg8) (v : Byte) : (s.setReg r v).roMasks = s.roMasks := by cases r <;> rfl
@[simp] theorem State.setReg_keeps_params (r : Reg8) (v : Byte) : (s.setReg r v).params = s.params := by cases r <;> rfl
@[simp] theorem State.setReg_keeps_env (r : Reg8) (v : Byte) : (s.setReg r v).env = s.env := by cases r <;> rfl

/-! ### A memory write: what it leaves -/

@[simp] theorem State.memWrite_pc (addr : Word) (v : Byte) : (s.memWrite addr v).1.pc = s.pc := by
  unfold State.memWrite; split <;> rfl
@[simp] theorem State.memWrite_a (addr : Word) (v : Byte) : (s.memWrite addr v).1.a = s.a := by
  unfold State.memWrite; split <;> rfl
@[simp] theorem State.memWrite_x (addr : Word) (v : Byte) : (s.memWrite addr v).1.x = s.x := by
  unfold State.memWrite; split <;> rfl
@[simp] theorem State.memWrite_y (addr : Word) (v : Byte) : (s.memWrite addr v).1.y = s.y := by
  unfold State.memWrite; split <;> rfl
@[simp] theorem State.memWrite_sp (addr : Word) (v : Byte) : (s.memWrite addr v).1.sp = s.sp := by
  unfold State.memWrite; split <;> rfl
@[simp] theorem State.memWrite_sr (addr : Word) (v : Byte) : (s.memWrite addr v).1.sr = s.sr := by
  unfold State.memWrite; split <;> rfl
@[simp] theorem State.memWrite_phase (addr : Word) (v : Byte) : (s.memWrite addr v).1.phase = s.phase := by
  unfold State.memWrite; split <;> rfl
@[simp] theorem State.memWrite_inWait (addr : Word) (v : Byte) : (s.memWrite addr v).1.inWait = s.inWait := by
  unfold State.memWrite; split <;> rfl
@[simp] theorem State.memWrite_term (addr : Word) (v : Byte) : (s.memWrite addr v).1.term = s.term := by
  unfold State.memWrite; split <;> rfl
@[simp] theorem State.memWrite_cycles (addr : Word) (v : Byte) : (s.memWrite addr v).1.cycles = s.cycles := by
  unfold State.memWrite; split <;> rfl
@[simp] theorem State.memWrite_freq (addr : Word) (v : Byte) : (s.memWrite addr v).1.freq = s.freq := by
  unfold State.memWrite; split <;> rfl
@[simp] theorem State.memWrite_mark (addr : Word) (v : Byte) : (s.memWrite addr v).1.mark = s.mark := by
  unfold State.memWrite; split <;> rfl
@[simp] theorem State.memWrite_fetched (addr : Word) (v : Byte) : (s.memWrite addr v).1.fetched = s.fetched := by
  unfold State.memWrite; split <;> rfl
@[simp] theorem State.memWrite_roMasks (addr : Word) (v : Byte) : (s.memWrite addr v).1.roMasks = s.roMasks := by
  unfold State.memWrite; split <;> rfl
@[simp] theorem State.memWrite_params (addr : Word) (v : Byte) : (s.memWrite addr v).1.params = s.params := by
  unfold State.memWrite; split <;> rfl
@[simp] theorem State.memWrite_env (addr : Word) (v : Byte) : (s.memWrite addr v).1.env = s.env := by
  unfold State.memWrite; split <;> rfl

/-! ### State.estimate: what it leaves -/

@[simp] theorem State.estimate_pc (n : Nat) (since : Time) : (s.estimate n since).pc = s.pc := by
  unfold State.estimate; split <;> rfl
@[simp] theorem State.estimate_a (n : Nat) (since : Time) : (s.estimate n since).a = s.a := by
  unfold State.estimate; split <;> rfl
@[simp] theorem State.estimate_x (n : Nat) (since : Time) : (s.estimate n since).x = s.x := by
  unfold State.estimate; split <;> rfl
@[simp] theorem State.estimate_y (n : Nat) (since : Time) : (s.estimate n since).y = s.y := by
  unfold State.estimate; split <;> rfl
@[simp] theorem State.estimate_sp (n : Nat) (since : Time) : (s.estimate n since).sp = s.sp := by
  unfold State.estimate; split <;> rfl
@[simp] theorem State.estimate_sr (n : Nat) (since : Time) : (s.estimate n since).sr = s.sr := by
  unfold State.estimate; split <;> rfl
@[simp] theorem State.estimate_phase (n : Nat) (since : Time) : (s.estimate n since).phase = s.phase := by
  unfold State.estimate; split <;> rfl
@[simp] theorem State.estimate_inWait (n : Nat) (since : Time) : (s.estimate n since).inWait = s.inWait := by
  unfold State.estimate; split <;> rfl
@[simp] theorem State.estimate_term (n : Nat) (since : Time) : (s.estimate n since).term = s.term := by
  unfold State.estimate; split <;> rfl
@[simp] theorem State.estimate_cycles (n : Nat) (since : Time) : (s.estimate n since).cycles = s.cycles := by
  unfold State.estimate; split <;> rfl
@[simp] theorem State.estimate_mark (n : Nat) (since : Time) : (s.estimate n since).mark = s.mark := by
  unfold State.estimate; split <;> rfl
@[simp] theorem State.estimate_fetched (n : Nat) (since : Time) : (s.estimate n since).fetched = s.fetched := by
  unfold State.estimate; split <;> rfl
@[simp] theorem State.estimate_mem (n : Nat) (since : Time) : (s.estimate n since).mem = s.mem := by
  unfold State.estimate; split <;> rfl
@[simp] theorem State.estimate_roMasks (n : Nat) (since : Time) : (s.estimate n since).roMasks = s.roMasks := by
  unfold State.estimate; split <;> rfl
@[simp] theorem State.estimate_params (n : Nat) (since : Time) : (s.estimate n since).params = s.params := by
  unfold State.estimate; split <;> rfl
@[simp] theorem State.estimate_env_inputs (n : Nat) (since : Time) : (s.estimate n since).env.inputs = s.env.inputs := by
  unfold State.estimate; split <;> rfl
@[simp] theorem State.estimate_env_clock (n : Nat) (since : Time) : (s.estimate n since).env.clock = s.env.clock := by
  unfold State.estimate; split <;> rfl
@[simp] theorem State.estimate_env_bus (n : Nat) (since : Time) : (s.estimate n since).env.bus = s.env.bus := by
  unfold State.estimate; split <;> rfl
@[simp] theorem State.estimate_env_reply (n : Nat) (since : Time) : (s.estimate n since).env.reply = s.env.reply := by
  unfold State.estimate; split <;> rfl

/-! ### State.measureWindow: what it leaves -/

@[simp] theorem State.measureWindow_pc : (s.measureWindow).pc = s.pc := by
  unfold State.measureWindow; split <;> [rfl; (split <;> simp)]
@[simp] theorem State.measureWindow_a : (s.measureWindow).a = s.a := by
  unfold State.measureWindow; split <;> [rfl; (split <;> simp)]
@[simp] theorem State.measureWindow_x : (s.measureWindow).x = s.x := by
  unfold State.measureWindow; split <;> [rfl; (split <;> simp)]
@[simp] theorem State.measureWindow_y : (s.measureWindow).y = s.y := by
  unfold State.measureWindow; split <;> [rfl; (split <;> simp)]
@[simp] theorem State.measureWindow_sp : (s.measureWindow).sp = s.sp := by
  unfold State.measureWindow; split <;> [rfl; (split <;> simp)]
@[simp] theorem State.measureWindow_sr : (s.measureWindow).sr = s.sr := by
  unfold State.measureWindow; split <;> [rfl; (split <;> simp)]
@[simp] theorem State.measureWindow_phase : (s.measureWindow).phase = s.phase := by
  unfold State.measureWindow; split <;> [rfl; (split <;> simp)]
@[simp] theorem State.measureWindow_inWait : (s.measureWindow).inWait = s.inWait := by
  unfold State.measureWindow; split <;> [rfl; (split <;> simp)]
@[simp] theorem State.measureWindow_term : (s.measureWindow).term = s.term := by
  unfold State.measureWindow; split <;> [rfl; (split <;> simp)]
@[simp] theorem State.measureWindow_cycles : (s.measureWindow).cycles = s.cycles := by
  unfold State.measureWindow; split <;> [rfl; (split <;> simp)]
@[simp] theorem State.measureWindow_fetched : (s.measureWindow).fetched = s.fetched := by
  unfold State.measureWindow; split <;> [rfl; (split <;> simp)]
@[simp] theorem State.measureWindow_mem : (s.measureWindow).mem = s.mem := by
  unfold State.measureWindow; split <;> [rfl; (split <;> simp)]
@[simp] theorem State.measureWindow_roMasks : (s.measureWindow).roMasks = s.roMasks := by
  unfold State.measureWindow; split <;> [rfl; (split <;> simp)]
@[simp] theorem State.measureWindow_params : (s.measureWindow).params = s.params := by
  unfold State.measureWindow; split <;> [rfl; (split <;> simp)]
@[simp] theorem State.measureWindow_env_inputs : (s.measureWindow).env.inputs = s.env.inputs := by
  unfold State.measureWindow; split <;> [rfl; (split <;> simp)]
@[simp] theorem State.measureWindow_env_clock : (s.measureWindow).env.clock = s.env.clock := by
  unfold State.measureWindow; split <;> [rfl; (split <;> simp)]
@[simp] theorem State.measureWindow_env_bus : (s.measureWindow).env.bus = s.env.bus := by
  unfold State.measureWindow; split <;> [rfl; (split <;> simp)]
@[simp] theorem State.measureWindow_env_reply : (s.measureWindow).env.reply = s.env.reply := by
  unfold State.measureWindow; split <;> [rfl; (split <;> simp)]

/-! ### State.finalFrequency: what it leaves -/

@[simp] theorem State.finalFrequency_pc : (s.finalFrequency).pc = s.pc := by
  unfold State.finalFrequency; split <;> [rfl; (split <;> simp)]
@[simp] theorem State.finalFrequency_a : (s.finalFrequency).a = s.a := by
  unfold State.finalFrequency; split <;> [rfl; (split <;> simp)]
@[simp] theorem State.finalFrequency_x : (s.finalFrequency).x = s.x := by
  unfold State.finalFrequency; split <;> [rfl; (split <;> simp)]
@[simp] theorem State.finalFrequency_y : (s.finalFrequency).y = s.y := by
  unfold State.finalFrequency; split <;> [rfl; (split <;> simp)]
@[simp] theorem State.finalFrequency_sp : (s.finalFrequency).sp = s.sp := by
  unfold State.finalFrequency; split <;> [rfl; (split <;> simp)]
@[simp] theorem State.finalFrequency_sr : (s.finalFrequency).sr = s.sr := by
  unfold State.finalFrequency; split <;> [rfl; (split <;> simp)]
@[simp] theorem State.finalFrequency_phase : (s.finalFrequency).phase = s.phase := by
  unfold State.finalFrequency; split <;> [rfl; (split <;> simp)]
@[simp] theorem State.finalFrequency_inWait : (s.finalFrequency).inWait = s.inWait := by
  unfold State.finalFrequency; split <;> [rfl; (split <;> simp)]
@[simp] theorem State.finalFrequency_term : (s.finalFrequency).term = s.term := by
  unfold State.finalFrequency; split <;> [rfl; (split <;> simp)]
@[simp] theorem State.finalFrequency_cycles : (s.finalFrequency).cycles = s.cycles := by
  unfold State.finalFrequency; split <;> [rfl; (split <;> simp)]
@[simp] theorem State.finalFrequency_mark : (s.finalFrequency).mark = s.mark := by
  unfold State.finalFrequency; split <;> [rfl; (split <;> simp)]
@[simp] theorem State.finalFrequency_fetched : (s.finalFrequency).fetched = s.fetched := by
  unfold State.finalFrequency; split <;> [rfl; (split <;> simp)]
@[simp] theorem State.finalFrequency_mem : (s.finalFrequency).mem = s.mem := by
  unfold State.finalFrequency; split <;> [rfl; (split <;> simp)]
@[simp] theorem State.finalFrequency_roMasks : (s.finalFrequency).roMasks = s.roMasks := by
  unfold State.finalFrequency; split <;> [rfl; (split <;> simp)]
@[simp] theorem State.finalFrequency_params : (s.finalFrequency).params = s.params := by
  unfold State.finalFrequency; split <;> [rfl; (split <;> simp)]
@[simp] theorem State.finalFrequency_env_inputs : (s.finalFrequency).env.inputs = s.env.inputs := by
  unfold State.finalFrequency; split <;> [rfl; (split <;> simp)]
@[simp] theorem State.finalFrequency_env_clock : (s.finalFrequency).env.clock = s.env.clock := by
  unfold State.finalFrequency; split <;> [rfl; (split <;> simp)]
@[simp] theorem State.finalFrequency_env_bus : (s.finalFrequency).env.bus = s.env.bus := by
  unfold State.finalFrequency; split <;> [rfl; (split <;> simp)]
@[simp] theorem State.finalFrequency_env_reply : (s.finalFrequency).env.reply = s.env.reply := by
  unfold State.finalFrequency; split <;> [rfl; (split <;> simp)]

end Sys2Proof.Machine
end

