-- ==== Sys2Proof/Laws/Ops.lean ====
section
/-! SUPPORT. For each shared operation, once, everything it can do; the provers cite these instead of unfolding. -/

namespace Sys2Proof.Machine

/-! ### The frequency estimate -/

/-- An estimate writes `freq`, and draws at most one free value. -/
theorem State.estimate_eq (s : State) (n : Nat) (since : Time) :
    ∃ f d, s.estimate n since = { s with freq := f, env := { s.env with draws := d } } := by
  unfold State.estimate
  split
  · exact ⟨_, s.env.draws, rfl⟩
  · exact ⟨_, _, rfl⟩

theorem State.estimate_freq {s : State} {n : Nat} {since : Time} (h : since < s.env.clock) :
    (s.estimate n since).freq = (n : Hz) / (s.env.clock - since) := by simp [State.estimate, h]

/-- A window measurement writes `freq` and the mark, and draws at most one free value. -/
theorem State.measureWindow_eq (s : State) :
    ∃ f k d, s.measureWindow = { s with freq := f, mark := k, env := { s.env with draws := d } } := by
  unfold State.measureWindow
  split
  · exact ⟨s.freq, s.mark, s.env.draws, rfl⟩
  · split
    · obtain ⟨f, d, h⟩ := s.estimate_eq s.params.freqWindow ‹Mark›.time
      exact ⟨f, _, d, by rw [h]⟩
    · exact ⟨s.freq, s.mark, s.env.draws, rfl⟩

/-- A window that is not full is not measured. -/
theorem State.measureWindow_of_not_full {s : State} (h : ∀ m, s.mark = some m → s.cycles ≠ m.cycles + s.params.freqWindow) :
    s.measureWindow = s := by
  unfold State.measureWindow
  split
  · rfl
  · next m hm => rw [if_neg (h m hm)]

/-- A full window moves the mark and takes the estimate over it. -/
theorem State.measureWindow_of_full {s : State} {m : Mark} (hm : s.mark = some m)
    (h : s.cycles = m.cycles + s.params.freqWindow) :
    s.measureWindow = { s.estimate s.params.freqWindow m.time with mark := some { time := s.env.clock, cycles := s.cycles } } := by
  unfold State.measureWindow
  rw [hm]
  exact if_pos h

/-- The final measurement writes `freq`, and draws at most one free value. -/
theorem State.finalFrequency_eq (s : State) :
    ∃ f d, s.finalFrequency = { s with freq := f, env := { s.env with draws := d } } := by
  unfold State.finalFrequency
  split
  · exact ⟨s.freq, s.env.draws, rfl⟩
  · split
    · exact s.estimate_eq _ _
    · exact ⟨s.freq, s.env.draws, rfl⟩

/-! ### Instructions -/

/-- Whatever the instruction, its meaning is the presentation of its byte. -/
theorem exec_eq_present (i : Instr) (s : State) : exec i s = present i s := by cases i <;> rfl

theorem present_of_encode {i : Instr} {op : Byte} (h : encode i = some op) (s : State) :
    present i s = .next (s.iteration op) := by simp [present, h]

/-- If an instruction answers a next state, it has a byte and the state is the iteration that fetched it. -/
theorem exec_next {i : Instr} {s t : State} (h : exec i s = .next t) :
    ∃ op, encode i = some op ∧ t = s.iteration op := by
  rw [exec_eq_present, present] at h
  split at h
  · next op hop => exact ⟨op, hop, by simpa using h.symm⟩
  · exact absurd h (by simp)

/-- An iteration is the fetch, and after it the measurement. -/
theorem State.iteration_eq (s : State) (op : Byte) :
    ∃ f k d, s.iteration op =
      { s.fetchByte op with freq := f, mark := k, env := { (s.fetchByte op).env with draws := d } } :=
  (s.fetchByte op).measureWindow_eq

/-! ### Memory writes -/

theorem State.memWrite_of_readOnly {s : State} {a : Word} (h : isReadOnly s.roMasks a = true) (v : Byte) :
    s.memWrite a v = (s, false) := by simp [State.memWrite, h]

theorem State.memWrite_of_writable {s : State} {a : Word} (h : isReadOnly s.roMasks a = false) (v : Byte) :
    s.memWrite a v = ({ s with mem := s.mem.set a v }, true) := by simp [State.memWrite, h]

/-! ### The CPU loop -/

/-- A stack-page read writes SP, the phase, the bus and the draw counter, and nothing else. -/
theorem State.stackRead_eq (s : State) (k : ResetRead) :
    ∃ bus d, s.stackRead k =
      { s.decSP with phase := .resetting k, env := { s.env with bus := some bus, draws := d } } := by
  unfold State.stackRead
  split
  · exact ⟨_, s.env.draws, rfl⟩
  · next h =>
    let addr := stackAddr (Config.freeByte s.env.draws)
    refine ⟨{ addr := addr, data := s.mem.read addr }, s.env.draws + 1, ?_⟩
    simp only [State.strobe, State.decSP, h, Option.map_none, addr]

/-- A reset read writes PC, SP, the phase, the mark, the bus and the draw counter, and nothing else (R253). -/
theorem State.resetRead_eq (s : State) (k : ResetRead) :
    ∃ pc sp ph mk bus d, s.resetRead k =
      { s with pc := pc, sp := sp, phase := ph, mark := mk, env := { s.env with bus := some bus, draws := d } } := by
  cases k <;> simp only [State.resetRead]
  case stack1 => obtain ⟨b, d, h⟩ := s.stackRead_eq .stack2; exact ⟨s.pc, _, _, s.mark, b, d, h⟩
  case stack2 => obtain ⟨b, d, h⟩ := s.stackRead_eq .stack3; exact ⟨s.pc, _, _, s.mark, b, d, h⟩
  case stack3 => obtain ⟨b, d, h⟩ := s.stackRead_eq .vectorLow; exact ⟨s.pc, _, _, s.mark, b, d, h⟩
  all_goals exact ⟨_, _, _, _, _, s.env.draws, rfl⟩

/-- A reset read neither takes SP's value away nor gives it one (R256). -/
theorem State.resetRead_sp_isSome (s : State) (k : ResetRead) : (s.resetRead k).sp.isSome = s.sp.isSome := by
  have stack : ∀ j, (s.stackRead j).sp.isSome = s.sp.isSome := fun j => by
    obtain ⟨_, _, h⟩ := s.stackRead_eq j
    rw [h]
    exact Option.isSome_map
  cases k <;> first | exact stack _ | rfl

/-- If the CPU loop's turn answers a next state: it did not move, or waits, or made a reset read, or left the loop, or ran
the instruction at PC. -/
theorem loopTurn_next {run : Instr → State → Host.Outcome State Fault Refusal} {pulse : Bool} {s t : State}
    (h : loopTurn run pulse s = .next t) :
    (t = s ∧ s.phase ≠ .running) ∨
    (s.phase = .running ∧ pulse = false ∧ (s.term && !s.inWait) = false ∧ t = { s with inWait := true }) ∨
    (∃ k, s.phase = .resetting k ∧ pulse = true ∧ t = s.resetRead k) ∨
    (s.phase = .running ∧ s.term = true ∧ s.inWait = false ∧ t = s.exitLoop) ∨
    (s.phase = .running ∧ pulse = true ∧ (s.term && !s.inWait) = false ∧
      run (decodeInstr (s.mem.read s.pc)) s = .next t) := by
  unfold loopTurn at h
  cases hp : s.phase with
  | idle => simp_all
  | terminated => simp_all
  | resetting k => cases pulse <;> simp_all
  | running =>
    cases hw : (s.term && !s.inWait) <;> cases pulse <;> simp only [hp, hw] at h <;> simp_all

/-! ### The reset state -/

/-- `State.reset` is the column "after reset" of R330, then the dispatcher's writes of A, X and Y (R332). -/
theorem State.reset_eq :
    State.reset = (((State.afterReset Launch.ofReset 0).setReg .a 0).setReg .x 0).setReg .y 0 := rfl

/-- Storing a value leaves every register that held one with one. -/
theorem State.setReg_isSome {s : State} {r : Reg8} (h : (s.reg r).isSome = true) (q : Reg8) (v : Byte) :
    ((s.setReg q v).reg r).isSome = true := by cases q <;> cases r <;> first | exact h | rfl

/-! ### The next move -/

theorem State.nextEvent_of_inputs {s : State} {e : Event} {rest : List Event} (h : s.env.inputs = e :: rest) :
    s.nextEvent = e := by simp [State.nextEvent, h]

/-- A step with a queued move is that move, from the state without it. -/
theorem step_of_inputs {s : State} {e : Event} {rest : List Event} (h : s.env.inputs = e :: rest) :
    step s = agentMove exec e s.takeEvent := by simp [step, State.nextEvent_of_inputs h]

/-- `start()` blocks exactly between Idle and Terminated (R254, R267). -/
theorem State.startBlocks_iff (s : State) : s.startBlocks = true ↔ s.phase ≠ .idle ∧ s.phase ≠ .terminated := by
  unfold State.startBlocks
  cases s.phase <;> simp

end Sys2Proof.Machine
end

