-- ==== Sys2Proof/Laws/PerInstr.lean ====
section
/-! SUPPORT. Per-instruction families: one lemma a constructor of Instr. -/

namespace Sys2Proof.Laws.EncodedIffWellFormed

/-- The encoder has a byte for the instruction exactly when the instruction is well formed. -/
def Statement (i : Instr) : Prop := (encode i).isSome = i.wellFormed

theorem adc (m : AddrMode) : Statement (.adc m) := by cases m <;> rfl
theorem and (m : AddrMode) : Statement (.and m) := by cases m <;> rfl
theorem asl (m : AddrMode) : Statement (.asl m) := by cases m <;> rfl
theorem bcc : Statement .bcc := rfl
theorem bcs : Statement .bcs := rfl
theorem beq : Statement .beq := rfl
theorem bit (m : AddrMode) : Statement (.bit m) := by cases m <;> rfl
theorem bmi : Statement .bmi := rfl
theorem bne : Statement .bne := rfl
theorem bpl : Statement .bpl := rfl
theorem brk : Statement .brk := rfl
theorem bvc : Statement .bvc := rfl
theorem bvs : Statement .bvs := rfl
theorem clc : Statement .clc := rfl
theorem cld : Statement .cld := rfl
theorem cli : Statement .cli := rfl
theorem clv : Statement .clv := rfl
theorem cmp (m : AddrMode) : Statement (.cmp m) := by cases m <;> rfl
theorem cpx (m : AddrMode) : Statement (.cpx m) := by cases m <;> rfl
theorem cpy (m : AddrMode) : Statement (.cpy m) := by cases m <;> rfl
theorem dec (m : AddrMode) : Statement (.dec m) := by cases m <;> rfl
theorem dex : Statement .dex := rfl
theorem dey : Statement .dey := rfl
theorem eor (m : AddrMode) : Statement (.eor m) := by cases m <;> rfl
theorem inc (m : AddrMode) : Statement (.inc m) := by cases m <;> rfl
theorem inx : Statement .inx := rfl
theorem iny : Statement .iny := rfl
theorem jmp (m : AddrMode) : Statement (.jmp m) := by cases m <;> rfl
theorem jsr : Statement .jsr := rfl
theorem lda (m : AddrMode) : Statement (.lda m) := by cases m <;> rfl
theorem ldx (m : AddrMode) : Statement (.ldx m) := by cases m <;> rfl
theorem ldy (m : AddrMode) : Statement (.ldy m) := by cases m <;> rfl
theorem lsr (m : AddrMode) : Statement (.lsr m) := by cases m <;> rfl
theorem nop : Statement .nop := rfl
theorem ora (m : AddrMode) : Statement (.ora m) := by cases m <;> rfl
theorem pha : Statement .pha := rfl
theorem php : Statement .php := rfl
theorem pla : Statement .pla := rfl
theorem plp : Statement .plp := rfl
theorem rol (m : AddrMode) : Statement (.rol m) := by cases m <;> rfl
theorem ror (m : AddrMode) : Statement (.ror m) := by cases m <;> rfl
theorem rti : Statement .rti := rfl
theorem rts : Statement .rts := rfl
theorem sbc (m : AddrMode) : Statement (.sbc m) := by cases m <;> rfl
theorem sec : Statement .sec := rfl
theorem sed : Statement .sed := rfl
theorem sei : Statement .sei := rfl
theorem sta (m : AddrMode) : Statement (.sta m) := by cases m <;> rfl
theorem stx (m : AddrMode) : Statement (.stx m) := by cases m <;> rfl
theorem sty (m : AddrMode) : Statement (.sty m) := by cases m <;> rfl
theorem tax : Statement .tax := rfl
theorem tay : Statement .tay := rfl
theorem tsx : Statement .tsx := rfl
theorem txa : Statement .txa := rfl
theorem txs : Statement .txs := rfl
theorem tya : Statement .tya := rfl
theorem illegal (op : Byte) : Statement (.illegal op) := by
  change (if isIllegalOpcode op then some op else none).isSome = isIllegalOpcode op
  cases isIllegalOpcode op <;> rfl

end Sys2Proof.Laws.EncodedIffWellFormed
end

