-- ==== Sys2Proof/Laws/Step.lean ====
section
/-! SUPPORT. What a step can do, once: its move, and what each move leaves behind. -/

namespace Sys2Proof.Machine

/-- A request on the port answers, stores in an 8-bit register, stores PC, or stores SR. -/
theorem portMove_next {r : PortRequest} {s t : State} (h : portMove r s = .next t) :
    (∃ reply, t = s.answer reply) ∨ (∃ q v, r = .writeReg q v ∧ t = s.setReg q v) ∨
    (∃ v, r = .writePC v ∧ t = { s with pc := v }) ∨ ∃ sr, t = { s with sr := sr } := by
  cases r <;> simp only [portMove] at h
  case readReg q =>
    split at h
    · exact .inl ⟨_, by simpa using h.symm⟩
    · exact absurd h (by simp)
  case writeReg q v => exact .inr (.inl ⟨q, v, rfl, by simpa using h.symm⟩)
  case writePC v => exact .inr (.inr (.inl ⟨v, rfl, by simpa using h.symm⟩))
  case writeSR v => exact .inr (.inr (.inr ⟨_, by simpa using h.symm⟩))
  case writeSRByte v => exact .inr (.inr (.inr ⟨_, by simpa using h.symm⟩))
  case writeFlag f v => exact .inr (.inr (.inr ⟨_, by simpa using h.symm⟩))
  all_goals exact .inl ⟨_, by simpa using h.symm⟩

/-- An ALU move has an operation, commits its flags and answers its result. -/
theorem aluMove_next {code : BitVec 4} {a b : Byte} {s t : State} (h : aluMove code a b s = .next t) :
    ∃ op, aluOpOfCode code = some op ∧
      t = { s with sr := (op.run a b s.sr).2 }.answer (.byte (op.run a b s.sr).1) := by
  unfold aluMove at h
  split at h
  · next op hop => exact ⟨op, hop, by simpa using h.symm⟩
  · exact absurd h (by simp)

/-- `start()` answers a next state only in Idle. -/
theorem hostStart_next {s t : State} (h : hostStart s = .next t) :
    s.phase = .idle ∧ t = { s with phase := .resetting .fetch1 } := by
  unfold hostStart at h
  split at h
  · next hp => exact ⟨hp, by simpa using h.symm⟩
  · exact absurd h (by simp)

/-- If a step answers a next state, it is one of the eight moves, made from the state whose move is taken. -/
theorem step_next {s t : State} (h : step s = .next t) :
    (∃ pulse now, s.nextEvent = .turn pulse now ∧ loopTurn exec pulse (s.takeEvent.observe now) = .next t) ∨
    (s.nextEvent = .start ∧ s.phase = .idle ∧ t = { s.takeEvent with phase := .resetting .fetch1 }) ∨
    (s.nextEvent = .terminate ∧ t = { s.takeEvent with term := true }) ∨
    (s.nextEvent = .frequency ∧ t = s.takeEvent.answer (.hz s.freq)) ∨
    (∃ r, s.nextEvent = .port r ∧ portMove r s.takeEvent = .next t) ∨
    (∃ code a b op, s.nextEvent = .alu code a b ∧ aluOpOfCode code = some op ∧
      t = { s.takeEvent with sr := (op.run a b s.sr).2 }.answer (.byte (op.run a b s.sr).1)) ∨
    (∃ addr, s.nextEvent = .memRead addr ∧ t = s.takeEvent.answer (.byte (s.mem.read addr))) ∨
    (∃ addr v, s.nextEvent = .memWrite addr v ∧
      t = (s.takeEvent.memWrite addr v).1.answer (.accepted (s.takeEvent.memWrite addr v).2)) := by
  unfold step at h
  cases he : s.nextEvent <;> rw [he] at h <;> simp only [agentMove] at h
  case turn pulse now => exact .inl ⟨pulse, now, rfl, h⟩
  case start =>
    obtain ⟨hp, ht⟩ := hostStart_next h
    exact .inr (.inl ⟨rfl, by simpa using hp, ht⟩)
  case terminate => exact .inr (.inr (.inl ⟨rfl, by simpa [hostTerminate] using h.symm⟩))
  case frequency => exact .inr (.inr (.inr (.inl ⟨rfl, by simpa [hostFrequency] using h.symm⟩)))
  case port r => exact .inr (.inr (.inr (.inr (.inl ⟨r, rfl, h⟩))))
  case alu code a b =>
    obtain ⟨op, hop, ht⟩ := aluMove_next h
    exact .inr (.inr (.inr (.inr (.inr (.inl ⟨code, a, b, op, rfl, hop, ht⟩)))))
  case memRead addr =>
    exact .inr (.inr (.inr (.inr (.inr (.inr (.inl ⟨addr, rfl, by simpa [memReadMove] using h.symm⟩))))))
  case memWrite addr v =>
    exact .inr (.inr (.inr (.inr (.inr (.inr (.inr ⟨addr, v, rfl, by simpa [memWriteMove] using h.symm⟩))))))

/-- The step function of a run, one step at a time. -/
theorem run_succ {k : Nat} {s t : State} (h : step s = .next t) :
    Host.Core.run Sys2Proof.core (k + 1) s = Host.Core.run Sys2Proof.core k t := by
  have h' : Sys2Proof.core.step s = .next t := h
  simp only [Host.Core.run, h']

/-- No ALU operation writes D, I or B (R27). -/
theorem AluOp.run_keeps_context (op : AluOp) (a b : Byte) (s : SR) :
    (op.run a b s).2.d = s.d ∧ (op.run a b s).2.i = s.i ∧ (op.run a b s).2.b = s.b := by
  cases op <;> exact ⟨rfl, rfl, rfl⟩

end Sys2Proof.Machine
end

