-- ==== Sys2Proof/Tests/Slice0.lean ====
section
/-! SUPPORT. Tests. Expected values are those of the spec's worked examples and vectors (spec/95_test_vectors.md, cited by section or
id) and of its encoding tables; below them, a witness for the hypotheses of every obligation that has some. -/

namespace Sys2Proof.Tests

open Sys2Proof.Machine

/-! ### Well-formedness: an ill-formed term for each check -/

theorem test_wf_group_one : (Instr.adc .immediate).wellFormed = true ∧ (Instr.adc .zeroPageY).wellFormed = false ∧
    (Instr.and .accumulator).wellFormed = false ∧ (Instr.cmp .implicit).wellFormed = false ∧
    (Instr.eor .indirect).wellFormed = false ∧ (Instr.lda .relative).wellFormed = false ∧
    (Instr.ora .zeroPageY).wellFormed = false ∧ (Instr.sbc .accumulator).wellFormed = false := by decide

theorem test_wf_shifts : (Instr.asl .accumulator).wellFormed = true ∧ (Instr.asl .implicit).wellFormed = false ∧
    (Instr.lsr .immediate).wellFormed = false ∧ (Instr.rol .absoluteY).wellFormed = false ∧
    (Instr.ror .zeroPageY).wellFormed = false := by decide

theorem test_wf_two_row_mnemonics : (Instr.bit .absoluteX).wellFormed = false ∧ (Instr.jmp .relative).wellFormed = false ∧
    (Instr.bit .zeroPage).wellFormed = true ∧ (Instr.jmp .indirect).wellFormed = true := by decide

theorem test_wf_compare_index : (Instr.cpx .zeroPageX).wellFormed = false ∧ (Instr.cpy .absoluteX).wellFormed = false ∧
    (Instr.cpx .immediate).wellFormed = true := by decide

theorem test_wf_inc_dec : (Instr.dec .accumulator).wellFormed = false ∧ (Instr.inc .absoluteY).wellFormed = false ∧
    (Instr.inc .absoluteX).wellFormed = true := by decide

theorem test_wf_load_index : (Instr.ldx .zeroPageX).wellFormed = false ∧ (Instr.ldx .zeroPageY).wellFormed = true ∧
    (Instr.ldy .zeroPageY).wellFormed = false ∧ (Instr.ldy .absoluteX).wellFormed = true := by decide

theorem test_wf_stores : (Instr.sta .immediate).wellFormed = false ∧ (Instr.stx .absoluteY).wellFormed = false ∧
    (Instr.sty .absoluteX).wellFormed = false ∧ (Instr.sta .absoluteY).wellFormed = true := by decide

theorem test_wf_illegal : (Instr.illegal 0xEA).wellFormed = false ∧ (Instr.illegal 0x02).wellFormed = true ∧
    (Instr.illegal 0x9E).wellFormed = true ∧ (Instr.illegal 0xFF).wellFormed = true := by decide

/-! ### Decoding: words written out from the fields a, b, c of R97, every constructor -/

/-- E6: 0x6C is a = 3, b = 3, c = 0; 0x02 is a = 0, b = 0, c = 2. -/
theorem test_decode_source_examples :
    decodeByte 0b01101100 = some (.jmp, .indirect) ∧ decInstr 0b01101100 = 27 ∧ decMode 0b01101100 = 6 ∧
    decodeAddressing 0b00000010 = none ∧ decodeInstruction 0b00000010 = none := by decide

/-- c = 1: a selects the mnemonic, b the mode. -/
theorem test_decode_group_one_words :
    decodeInstr 0b00000001 = .ora .indexedIndirect ∧ decodeInstr 0b00100101 = .and .zeroPage ∧
    decodeInstr 0b01001001 = .eor .immediate ∧ decodeInstr 0b01101101 = .adc .absolute ∧
    decodeInstr 0b10010001 = .sta .indirectIndexed ∧ decodeInstr 0b10110101 = .lda .zeroPageX ∧
    decodeInstr 0b11011001 = .cmp .absoluteY ∧ decodeInstr 0b11111101 = .sbc .absoluteX ∧
    decodeInstr 0b10001001 = .illegal 0x89 := by decide

/-- c = 2: shifts, rotates, STX, LDX, DEC, INC and the implicit exceptions. -/
theorem test_decode_group_two_words :
    decodeInstr 0b00001010 = .asl .accumulator ∧ decodeInstr 0b00101110 = .rol .absolute ∧
    decodeInstr 0b01010110 = .lsr .zeroPageX ∧ decodeInstr 0b01111110 = .ror .absoluteX ∧
    decodeInstr 0b10010110 = .stx .zeroPageY ∧ decodeInstr 0b10100010 = .ldx .immediate ∧
    decodeInstr 0b10111110 = .ldx .absoluteY ∧ decodeInstr 0b11000110 = .dec .zeroPage ∧
    decodeInstr 0b11101110 = .inc .absolute ∧ decodeInstr 0b10011110 = .illegal 0x9E := by decide

theorem test_decode_transfer_words :
    decodeInstr 0b10001010 = .txa ∧ decodeInstr 0b10101010 = .tax ∧ decodeInstr 0b11001010 = .dex ∧
    decodeInstr 0b11101010 = .nop ∧ decodeInstr 0b10011010 = .txs ∧ decodeInstr 0b10111010 = .tsx ∧
    decodeInstr 0b10101000 = .tay ∧ decodeInstr 0b10011000 = .tya ∧ decodeInstr 0b10001000 = .dey ∧
    decodeInstr 0b11001000 = .iny ∧ decodeInstr 0b11101000 = .inx := by decide

/-- c = 0, b = 4: the branches. -/
theorem test_decode_branch_words :
    decodeInstr 0b00010000 = .bpl ∧ decodeInstr 0b00110000 = .bmi ∧ decodeInstr 0b01010000 = .bvc ∧
    decodeInstr 0b01110000 = .bvs ∧ decodeInstr 0b10010000 = .bcc ∧ decodeInstr 0b10110000 = .bcs ∧
    decodeInstr 0b11010000 = .bne ∧ decodeInstr 0b11110000 = .beq := by decide

/-- c = 0, b = 0 and b = 2: BRK, the jump, the returns and the stack operations. -/
theorem test_decode_jump_and_stack_words :
    decodeInstr 0b00000000 = .brk ∧ decodeInstr 0b00100000 = .jsr ∧ decodeInstr 0b01000000 = .rti ∧
    decodeInstr 0b01100000 = .rts ∧ decodeInstr 0b01001100 = .jmp .absolute ∧ decodeInstr 0b00001000 = .php ∧
    decodeInstr 0b00101000 = .plp ∧ decodeInstr 0b01001000 = .pha ∧ decodeInstr 0b01101000 = .pla := by decide

/-- c = 0, b = 6: the flag instructions. -/
theorem test_decode_flag_words :
    decodeInstr 0b00011000 = .clc ∧ decodeInstr 0b00111000 = .sec ∧ decodeInstr 0b01011000 = .cli ∧
    decodeInstr 0b01111000 = .sei ∧ decodeInstr 0b10111000 = .clv ∧ decodeInstr 0b11011000 = .cld ∧
    decodeInstr 0b11111000 = .sed := by decide

/-- c = 0: BIT, STY, LDY, CPY, CPX; and c = 3, all illegal. -/
theorem test_decode_index_words :
    decodeInstr 0b00100100 = .bit .zeroPage ∧ decodeInstr 0b10010100 = .sty .zeroPageX ∧
    decodeInstr 0b10111100 = .ldy .absoluteX ∧ decodeInstr 0b11000000 = .cpy .immediate ∧
    decodeInstr 0b11101100 = .cpx .absolute ∧ decodeInstr 0b11111111 = .illegal 0xFF := by decide

/-- 95, section 2.1: 151 legal opcodes, 46 with c = 0, 63 with c = 1, 42 with c = 2. -/
theorem test_decode_counts :
    ((List.range 256).filter fun n => decValid (BitVec.ofNat 8 n)).length = 151 ∧
    ((List.range 64).filter fun n => decValid (BitVec.ofNat 8 (4 * n))).length = 46 ∧
    ((List.range 64).filter fun n => decValid (BitVec.ofNat 8 (4 * n + 1))).length = 63 ∧
    ((List.range 64).filter fun n => decValid (BitVec.ofNat 8 (4 * n + 2))).length = 42 := by decide +kernel

/-- 95, section 2.1, rows 0x96, 0xBE, 0xFE and 0x80. -/
theorem test_decode_signals :
    (decValid 0x96, decInstr 0x96, decMode 0x96) = (true, 48, 12) ∧
    (decValid 0xBE, decInstr 0xBE, decMode 0xBE) = (true, 30, 3) ∧
    (decValid 0xFE, decInstr 0xFE, decMode 0xFE) = (true, 24, 2) ∧
    (decValid 0x80, decInstr 0x80, decMode 0x80) = (false, 0, 0) := by decide

theorem test_decode_table_word :
    decodeTableWord 8 0x6C = some (.jmp .indirect) ∧ decodeTableWord 8 0x02 = some (.illegal 0x02) := by decide

/-! ### The ALU: 95, sections 1 and 2.2 to 2.5. Flags are written as the packed byte of R28 -/

/-- 95, section 2.6. -/
theorem test_pack :
    SR.pack { n := true, v := true, b := true, d := true, i := true, z := true, c := true } = 0xDF ∧
    SR.pack { n := true, v := false, b := false, d := false, i := false, z := false, c := true } = 0x81 ∧
    SR.unpack 0x08 = { n := false, v := false, b := false, d := true, i := false, z := false, c := false } ∧
    SR.unpack 0x20 = SR.unpack 0 := by decide

/-- E1, and the wraps and V rows of 2.2. -/
theorem test_add_binary :
    AluOp.run .add 0x50 0x50 (SR.unpack 0x00) = (0xA0, SR.unpack 0xC0) ∧
    AluOp.run .add 0xFF 0x01 (SR.unpack 0x00) = (0x00, SR.unpack 0x43) ∧
    AluOp.run .add 0x01 0xFF (SR.unpack 0x00) = (0x00, SR.unpack 0x03) ∧
    AluOp.run .add 0xFF 0xFF (SR.unpack 0x01) = (0xFF, SR.unpack 0x81) ∧
    AluOp.run .add 0x50 0x50 (SR.unpack 0x14) = (0xA0, SR.unpack 0xD4) := by decide

/-- E2, and the decimal rows of 2.2. -/
theorem test_add_decimal :
    AluOp.run .add 0x50 0x50 (SR.unpack 0x08) = (0x00, SR.unpack 0x0B) ∧
    AluOp.run .add 0x45 0x45 (SR.unpack 0x08) = (0x90, SR.unpack 0xC8) ∧
    AluOp.run .add 0x58 0x46 (SR.unpack 0x09) = (0x05, SR.unpack 0x09) ∧
    AluOp.run .add 0x0F 0x0F (SR.unpack 0x08) = (0x30, SR.unpack 0x08) ∧
    AluOp.run .add 0xFF 0x00 (SR.unpack 0x08) = (0x65, SR.unpack 0x49) := by decide

/-- E3, and the rows of 2.3. -/
theorem test_subtract_binary :
    AluOp.run .subtract 0x00 0x01 (SR.unpack 0x01) = (0xFF, SR.unpack 0xC0) ∧
    AluOp.run .subtract 0x42 0x42 (SR.unpack 0x01) = (0x00, SR.unpack 0x03) ∧
    AluOp.run .subtract 0x05 0x03 (SR.unpack 0x00) = (0x01, SR.unpack 0x01) ∧
    AluOp.run .subtract 0x00 0xFF (SR.unpack 0x00) = (0x00, SR.unpack 0x02) ∧
    AluOp.run .subtract 0x80 0x01 (SR.unpack 0x01) = (0x7F, SR.unpack 0x41) := by decide

theorem test_subtract_decimal :
    AluOp.run .subtract 0x00 0x01 (SR.unpack 0x09) = (0x99, SR.unpack 0xC8) ∧
    AluOp.run .subtract 0x10 0x01 (SR.unpack 0x08) = (0x08, SR.unpack 0x09) ∧
    AluOp.run .subtract 0x00 0x99 (SR.unpack 0x08) = (0x00, SR.unpack 0x0A) ∧
    AluOp.run .subtract 0xF9 0x00 (SR.unpack 0x09) = (0x59, SR.unpack 0x49) ∧
    AluOp.run .subtract 0x0A 0x00 (SR.unpack 0x09) = (0x10, SR.unpack 0x09) := by decide

theorem test_logical :
    AluOp.run .logicalAnd 0xF0 0x8F (SR.unpack 0x41) = (0x80, SR.unpack 0xC1) ∧
    AluOp.run .logicalAnd 0xAA 0x55 (SR.unpack 0x80) = (0x00, SR.unpack 0x02) ∧
    AluOp.run .logicalOr 0x80 0x01 (SR.unpack 0x5D) = (0x81, SR.unpack 0xDD) ∧
    AluOp.run .logicalOr 0x00 0x00 (SR.unpack 0x00) = (0x00, SR.unpack 0x02) ∧
    AluOp.run .logicalXor 0xFF 0x7F (SR.unpack 0x00) = (0x80, SR.unpack 0x80) ∧
    AluOp.run .logicalXor 0x5A 0x5A (SR.unpack 0x81) = (0x00, SR.unpack 0x03) := by decide

/-- E4, and the rows of 2.5. -/
theorem test_shifts :
    AluOp.run .shiftLeft 0x80 0 (SR.unpack 0x00) = (0x00, SR.unpack 0x03) ∧
    AluOp.run .shiftLeft 0xFF 0 (SR.unpack 0x01) = (0xFE, SR.unpack 0x81) ∧
    AluOp.run .shiftRight 0x81 0 (SR.unpack 0x80) = (0x40, SR.unpack 0x01) ∧
    AluOp.run .shiftRight 0x00 0 (SR.unpack 0x01) = (0x00, SR.unpack 0x02) ∧
    AluOp.run .shiftRight 0xFF 0 (SR.unpack 0x40) = (0x7F, SR.unpack 0x41) := by decide

/-- E5, and the rows of 2.5. -/
theorem test_rotates :
    AluOp.run .rotateRight 0x01 0 (SR.unpack 0x01) = (0x80, SR.unpack 0x81) ∧
    AluOp.run .rotateRight 0xFE 0 (SR.unpack 0x40) = (0x7F, SR.unpack 0x40) ∧
    AluOp.run .rotateLeft 0x80 0 (SR.unpack 0x00) = (0x00, SR.unpack 0x03) ∧
    AluOp.run .rotateLeft 0x40 0 (SR.unpack 0x01) = (0x81, SR.unpack 0x80) ∧
    AluOp.run .rotateLeft 0xFF 0 (SR.unpack 0x40) = (0xFE, SR.unpack 0xC1) := by decide

/-! ### Memory: 95, section 2.7 -/

theorem test_memory_write_default_masks :
    (State.reset.memWrite 0xFFFC 0x55).2 = false ∧ (State.reset.memWrite 0xFFFA 0x55).2 = false ∧
    (State.reset.memWrite 0xFFFB 0x55).2 = false ∧ (State.reset.memWrite 0xFFFF 0x55).2 = false ∧
    (State.reset.memWrite 0xFFFC 0x55).1.mem.read 0xFFFC = 0 ∧
    (State.reset.memWrite 0xFFF9 0x55).2 = true ∧ (State.reset.memWrite 0x7FFE 0x55).2 = true ∧
    (State.reset.memWrite 0x01FF 0x55).1.mem.read 0x01FF = 0x55 := by decide

theorem test_other_masks :
    isReadOnly [] 0xFFFC = false ∧ isReadOnly [0x0000] 0x1234 = true ∧ isReadOnly [0xA000] 0xA123 = true ∧
    isReadOnly [0xA000] 0xE000 = true ∧ isReadOnly [0xA000] 0x8000 = false ∧
    isReadOnly [0xA000] 0x2000 = false := by decide

/-- Writing 0 removes the entry, and entries stay sorted. -/
theorem test_memory_canonical :
    Mem.set (Mem.set (Mem.set [] 0x20 1) 0x10 2) 0x20 0 = [(0x10, 2)] ∧
    Mem.set (Mem.set [] 0x20 1) 0x10 2 = [(0x10, 2), (0x20, 1)] ∧ Mem.wf [(0x20, 1), (0x10, 2)] = false ∧
    Mem.wf [(0x10, 0)] = false ∧ Mem.wf [(0x10, 2), (0x10, 3)] = false ∧ Mem.wf [(0x10000, 1)] = false := by decide

/-! ### The sequencer -/

/-- The state a move leads to. -/
def nxt (o : Host.Outcome State Fault Refusal) : Option State :=
  match o with
  | .next s => some s
  | _ => none

/-- The state after `k` steps. -/
def after (k : Nat) (s : State) : Option State :=
  match k with
  | 0 => some s
  | k + 1 => (nxt (step s)).bind (after k)

/-- The launch of the reset trace of 95, section 2.8, with PC 0xABCD at power-on. -/
def launch (inputs : List Event) : Launch :=
  { Launch.default with
    pcPowerOn := 0xABCD, spPowerOn := some 0x01, mem0 := [(0xFFFC, 0x34), (0xFFFD, 0x12)], inputs := inputs }

/-- A Running state at 0x1234 with the moves `inputs` queued; the byte there is 0x6C. -/
def running (inputs : List Event) : State :=
  { State.afterReset (launch inputs) 0 with mem := [(0x1234, 0x6C), (0x1235, 0x02)] }

/-- The read address, SP and PC after the seven reset reads of 95, section 2.8. -/
theorem test_reset_trace_early_reads :
    (after 2 (.construct (launch (.start :: List.replicate 7 (.turn true 0))))).map (fun s => (s.env.bus, s.sp, s.pc)) =
      some (some ⟨0xABCD, 0⟩, some 0x01, 0xABCD) ∧
    (after 4 (.construct (launch (.start :: List.replicate 7 (.turn true 0))))).map (fun s => (s.env.bus, s.sp, s.pc)) =
      some (some ⟨0x0101, 0⟩, some 0x00, 0xABCD) ∧
    (after 6 (.construct (launch (.start :: List.replicate 7 (.turn true 0))))).map (fun s => (s.env.bus, s.sp, s.pc)) =
      some (some ⟨0x01FF, 0⟩, some 0xFE, 0xABCD) := by decide

theorem test_reset_trace_vector :
    (after 7 (.construct (launch (.start :: List.replicate 7 (.turn true 0))))).map (fun s => (s.env.bus, s.phase)) =
      some (some ⟨0xFFFC, 0x34⟩, .resetting (.vectorHigh 0x34)) ∧
    (after 8 (.construct (launch (.start :: List.replicate 7 (.turn true 3))))).map
      (fun s => (s.pc, s.phase, s.cycles, s.mark)) = some (0x1234, .running, 0, some ⟨3, 0⟩) ∧
    (after 8 (.construct (launch (.start :: List.replicate 7 (.turn true 3))))).map
      (fun s => (s.env.bus, s.sp, s.sr.pack)) = some (some ⟨0xFFFD, 0x12⟩, some 0xFE, 0) := by decide

/-- Pulse gating of 95, section 2.8: polls F, F, T, T, F, T. -/
theorem test_pulse_gating :
    ([1, 2, 3, 4, 5, 6].map fun k =>
      (after k (running ([false, false, true, true, false, true].map fun p => .turn p 0))).map
        fun s => (s.env.bus.map BusRead.addr, s.pc, s.cycles)) =
      [some (none, 0x1234, 0), some (none, 0x1234, 0), some (some 0x1234, 0x1235, 1), some (some 0x1235, 0x1236, 2),
       some (none, 0x1236, 2), some (some 0x1236, 0x1237, 3)] := by decide

/-- T1: `terminate()` in Idle; the first check ends the run with no Running read. -/
theorem test_terminate_before_start :
    (after 10 (.construct (launch (.terminate :: .start :: List.replicate 8 (.turn true 0))))).map
      (fun s => (s.phase, s.cycles, s.freq, s.fetched)) = some (.terminated, 0, 0, none) := by decide

/-- T3 and T4: a request within a wait is seen after that wait's read, or never. -/
theorem test_terminate_within_wait :
    (after 4 (running [.turn false 0, .terminate, .turn true 0, .turn true 0])).map (fun s => (s.phase, s.cycles)) =
      some (.terminated, 1) ∧
    (after 4 (running [.turn false 0, .terminate, .turn false 0, .turn false 0])).map (fun s => (s.phase, s.term)) =
      some (.running, true) := by decide

/-- T6. -/
theorem test_start_refused : hostStart { running [] with phase := .terminated } = .refused .startNotIdle := rfl

/-- F2, F3 and F5: the window measurement, and no final one after it. -/
theorem test_frequency_window :
    (nxt (step { running [.turn true (1 / 10)] with cycles := 99 })).map (fun s => (s.freq, s.mark, s.cycles)) =
      some (1000, some ⟨1 / 10, 100⟩, 100) ∧
    (nxt (step { running [.turn true (3 / 10)] with cycles := 199, mark := some ⟨1 / 10, 100⟩ })).map (fun s => s.freq) =
      some 500 ∧
    (nxt (step { running [.turn true 1] with cycles := 150, mark := some ⟨1 / 10, 100⟩, freq := 1000, term := true })).map
      (fun s => (s.phase, s.freq)) = some (.terminated, 1000) := by decide +kernel

/-- F4: the final measurement. -/
theorem test_frequency_final :
    (nxt (step { running [.turn true (202 / 100)] with cycles := 40, mark := some ⟨2, 0⟩, term := true })).map
      (fun s => (s.phase, s.freq)) = some (.terminated, 2000) := by decide +kernel

/-- R7: another window and another reset vector, the latter at the top of the address space (R63, R69). -/
theorem test_other_parameters :
    (nxt (step { running [.turn true 1] with cycles := 2, params := { Config.defaultParams with freqWindow := 3 } })).map
      (fun s => (s.freq, s.mark)) = some (3, some ⟨1, 3⟩) ∧
    (nxt (step { running [.turn true 1] with cycles := 99, params := { Config.defaultParams with freqWindow := 101 } })).map
      (fun s => s.mark) = some (some ⟨0, 0⟩) ∧
    (nxt (step { running [.turn true 0] with
      phase := .resetting (.vectorHigh 0x34), mem := [(0x0000, 0x12), (0xFFFF, 0x34)],
      params := { Config.defaultParams with resetVec := 0xFFFF } })).map (fun s => (s.pc, s.env.bus)) =
      some (0x1234, some ⟨0x0000, 0x12⟩) := by decide +kernel

/-- Programs 1 and 2 of 95, section 3: an illegal byte does not stop the loop, and PC wraps. -/
theorem test_fetch :
    (after 2 (running [.turn true 0, .turn true 0])).map (fun s => (s.pc, s.cycles, s.phase)) =
      some (0x1236, 2, .running) ∧
    (after 2 (running [.turn true 0, .turn true 0])).map State.decoded = some (some none) ∧
    (nxt (step { running [.turn true 0] with pc := 0xFFFF })).map (fun s => (s.pc, s.fetched)) =
      some (0x0000, some 0x00) := by decide

/-- The word placed by `withFetchWord` is fetched by the next step, and the one at PC is its first byte. -/
theorem test_with_fetch_word :
    (nxt (step (State.reset.withFetchWord 8 0x69))).map (fun s => (s.fetched, s.pc, s.cycles)) = some (some 0x69, 1, 1) ∧
    (nxt (step (State.reset.withFetchWord 8 0xFF))).map (fun s => (s.fetched, s.decoded)) = some (some 0xFF, some none) := by
  decide

/-- R31, R41: an unwritten register faults on a read, a written one answers. -/
theorem test_port :
    nxt (step (running [.port (.readReg .a)])) = none ∧
    (after 2 (running [.port (.writeReg .a 0x5A), .port (.readReg .a)])).map (fun s => (s.a, s.env.reply)) =
      some (some 0x5A, some (.byte 0x5A)) ∧
    (after 2 (running [.port (.writeFlag .d true), .port .readSRByte])).map (fun s => s.env.reply) =
      some (some (.byte 0x08)) := by decide

/-- Program 3 of 95, section 3: 1999 + 0001 in decimal mode, the flags carried from one call to the next. -/
theorem test_two_byte_decimal_add :
    (after 3 (running [.port (.writeFlag .d true), .alu 0 0x99 0x01, .alu 0 0x19 0x00])).map
      (fun s => (s.env.reply, s.sr.pack)) = some (some (.byte 0x20), 0x08) ∧
    nxt (step (running [.alu 9 0 0])) = none := by decide

/-- R93: the page wraps. -/
theorem test_operand_forms :
    formOperand .zeroPageX 0xFF 0 0 { running [] with x := some 2 } = some (.address 0x0001) ∧
    formOperand .absoluteX 0xFF 0xFF 0 { running [] with x := some 2 } = some (.address 0x0001) ∧
    formOperand .indirect 0xFF 0x12 0 { running [] with mem := [(0x1200, 0x80), (0x12FF, 0x34), (0x1300, 0x99)] } =
      some (.address 0x8034) ∧
    formOperand .relative 0xFE 0 0x0000 (running []) = some (.target 0xFFFE) ∧
    formOperand .absoluteY 0 0 0 (running []) = none := by decide

/-! ### Witnesses: a concrete state and operands that meet each obligation's hypotheses, clause by clause -/

theorem test_witness_DecodeOfEncodeIsTheInstruction :
    (Instr.adc .indirectIndexed).wellFormed = true ∧ encode (.adc .indirectIndexed) = some 0x71 ∧
    (Instr.sta .immediate).wellFormed = false ∧ encode (.sta .immediate) = none := by decide

theorem test_witness_IllegalOpcodesDecodeToNone : isIllegalOpcode 0x02 = true ∧ isIllegalOpcode 0x00 = false ∧
    isIllegalOpcode 0xFF = true ∧ isIllegalOpcode 0xFE = false := by decide

theorem test_witness_DecoderSignalsCarryTheCodes :
    decodeByte 0x00 = some (.brk, .implicit) ∧ decodeByte 0xFF = none := by decide

/-- The clauses over a form or a byte in the six family statements, at the boundary bytes of their corner cases. -/
theorem test_witness_family_statements :
    (.indirectIndexed, 0x71) ∈ Mnemonic.forms .adc ∧ (.absoluteX, 0xFE) ∈ Mnemonic.forms .inc ∧
    (.absoluteY, 0xBE) ∈ Mnemonic.forms .ldx ∧ (.implicit, 0xAA) ∈ Mnemonic.forms .tax ∧
    (.indirect, 0x6C) ∈ Mnemonic.forms .jmp ∧ (.implicit, 0x78) ∈ Mnemonic.forms .sei ∧
    fieldC 0xA0 = 0 ∧ fieldB 0xA0 = 0 ∧ fieldC 0xE0 = 0 ∧ fieldB 0xE0 = 0 ∧
    decodeAddressing 0xE0 = some .immediate ∧ fieldC 0x00 = 0 ∧ fieldB 0x00 = 0 ∧ fieldA 0x00 = 0 ∧
    fieldA 0x40 = 2 ∧ fieldA 0x60 = 3 := by decide

/-- Every constructor of `Instr` has a well-formed term. -/
theorem test_witness_EveryInstructionCompletesAsOneIteration :
    ([.adc .immediate, .and .immediate, .asl .accumulator, .bit .zeroPage, .cmp .immediate, .cpx .immediate,
      .cpy .immediate, .dec .zeroPage, .eor .immediate, .inc .zeroPage, .jmp .indirect, .lda .immediate, .ldx .zeroPageY,
      .ldy .absoluteX, .lsr .accumulator, .ora .immediate, .rol .accumulator, .ror .accumulator, .sbc .immediate,
      .sta .absoluteY, .stx .zeroPageY, .sty .zeroPageX, .bcc, .bcs, .beq, .bmi, .bne, .bpl, .brk, .bvc, .bvs, .clc, .cld,
      .cli, .clv, .dex, .dey, .inx, .iny, .jsr, .nop, .pha, .php, .pla, .plp, .rti, .rts, .sec, .sed, .sei, .tax, .tay,
      .tsx, .txa, .txs, .tya, .illegal 0x02] : List Instr).all (fun i => i.wellFormed && (encode i).isSome) = true := by
  decide

/-- The two disjuncts of the wait, for the statements about a granted turn: past the check, or with no request. -/
theorem test_witness_StepRunsTheDecodedInstruction :
    (running [.turn true 0]).phase = .running ∧ (running [.turn true 0]).term = false ∧
    (running [.turn true 0]).env.inputs = [.turn true 0] ∧
    decode [(running [.turn true 0]).mem.read (running [.turn true 0]).pc] = some (.jmp .indirect, []) ∧
    (nxt (step { running [.turn true 0] with term := true, inWait := true })).map (fun s => (s.phase, s.cycles)) =
      some (.running, 1) := by decide

/-- A turn in Idle and in Terminated, and each other move. -/
theorem test_witness_StepMakesTheNextMove :
    (nxt (step { running [.turn true 5] with phase := .idle })).map (fun s => (s.phase, s.pc, s.env.bus)) =
      some (.idle, 0x1234, none) ∧
    (nxt (step { running [.turn true 5] with phase := .terminated })).map (fun s => (s.cycles, s.env.bus)) =
      some (0, none) ∧
    (nxt (step { running [.start] with phase := .idle })).map (fun s => s.phase) = some (.resetting .fetch1) ∧
    (nxt (step (running [.terminate]))).map (fun s => s.term) = some true ∧
    ([.frequency, .port .readPC, .alu 2 0xF0 0x8F, .memRead 0x1234, .memWrite 0xFFFC 1] : List Event).map
      (fun e => (nxt (step (running [e]))).map fun s => s.env.reply) =
      [some (some (.hz 0)), some (some (.word 0x1234)), some (some (.byte 0x80)), some (some (.byte 0x6C)),
       some (some (.accepted false))] := by decide

theorem test_witness_IllegalOpcodeIsAValueNotAnEvent :
    isIllegalOpcode (Mem.read (running []).mem 0x1235) = true ∧
    (nxt (step { running [.turn true 0] with pc := 0x1235 })).map (fun s => (s.phase, s.decoded)) =
      some (.running, some none) := by decide

/-- The exit, the granted turn at the top of the address space, and the false poll. -/
theorem test_witness_RunningTurnFollowsTheIterationRule :
    (nxt (step { running [.turn true 0] with term := true })).map (fun s => (s.phase, s.pc, s.cycles)) =
      some (.terminated, 0x1234, 0) ∧
    (nxt (step { running [.turn true 0] with pc := 0xFFFF })).map (fun s => (s.pc, s.cycles)) = some (0, 1) ∧
    (nxt (step (running [.turn false 0]))).map (fun s => (s.inWait, s.pc, s.cycles)) = some (true, 0x1234, 0) := by decide

theorem test_witness_PulseWaitFollowsItsRule :
    (nxt (step { running [.turn false 0] with phase := .resetting .fetch1 })).map (fun s => (s.phase, s.env.bus)) =
      some (.resetting .fetch1, none) ∧
    (nxt (step { running [.turn true 0] with phase := .resetting .fetch1 })).map (fun s => (s.phase, s.env.bus)) =
      some (.resetting .fetch2, some ⟨0x1234, 0x6C⟩) ∧
    (nxt (step { running [.turn false 0] with term := true, inWait := true })).map (fun s => (s.inWait, s.env.bus)) =
      some (true, none) := by decide

/-- The counts on either side of the full window. -/
theorem test_witness_FullWindowMeasuresTheFrequency :
    ({ running [.turn true 1] with cycles := 99 } : State).mark = some ⟨0, 0⟩ ∧ 99 + 1 = (⟨0, 0⟩ : Mark).cycles + 100 ∧
    (nxt (step { running [.turn true 1] with cycles := 99 })).map (fun s => s.mark) = some (some ⟨1, 100⟩) ∧
    (nxt (step { running [.turn true 1] with cycles := 98 })).map (fun s => s.mark) = some (some ⟨0, 0⟩) ∧
    (nxt (step { running [.turn true 1] with cycles := 100 })).map (fun s => s.mark) = some (some ⟨0, 0⟩) := by
  decide +kernel

theorem test_witness_GrantedPulsesAdvanceCyclesAndPC :
    (running ([0, 1].map (Event.turn true) ++ [.frequency])).phase = .running ∧
    (running ([0, 1].map (Event.turn true) ++ [.frequency])).term = false ∧
    (after 2 (running ([0, 1].map (Event.turn true) ++ [.frequency]))).map (fun s => (s.pc, s.cycles, s.env.inputs)) =
      some (0x1236, 2, [.frequency]) := by decide

theorem test_witness_FalsePollsStallTheLoop :
    ({ running ([0, 1].map (Event.turn false)) with inWait := true, term := true } : State).phase = .running ∧
    (after 2 { running ([0, 1].map (Event.turn false)) with inWait := true, term := true }).map
      (fun s => (s.phase, s.term, s.cycles)) = some (.running, true, 0) ∧
    (after 2 { running ([0, 1].map (Event.turn false)) with phase := .resetting .stack1, term := true }).map
      (fun s => (s.phase, s.term, s.sp)) = some (.resetting .stack1, true, some 0xFE) := by decide

theorem test_witness_RequestDuringWaitEndsAfterTheRead :
    (after 3 { running [.terminate, .turn true 0, .turn false 0] with inWait := true }).map
      (fun s => (s.phase, s.cycles, s.pc)) = some (.terminated, 1, 0x1235) := by decide

theorem test_witness_TerminatedIsFinal :
    (nxt (step { running [.turn true 0] with phase := .terminated })).map (fun s => (s.phase, s.pc, s.env.bus)) =
      some (.terminated, 0x1234, none) ∧
    (nxt (step { running [.port (.writeReg .x 7)] with phase := .terminated })).map (fun s => (s.phase, s.x)) =
      some (.terminated, some 7) := by decide

/-- The hypothesis `step s = .next t` of OnlyAnIterationFetchesAndCounts, TerminationFlagIsSticky, RegistersChangeOnlyThroughThePort,
ProgramCounterHasThreeWriters, FlagsChangeOnlyByAluAndPort and TheCoreOnlyReadsMemory, and each of their writers: an iteration, a port write, a reset read
in the stack page, reset read 7, an ALU operation, `terminate()`, and a memory write. -/
theorem test_witness_frame_statements :
    (nxt (step (running [.turn true 0]))).map (fun s => (s.cycles, s.pc, s.env.bus)) =
      some (1, 0x1235, some ⟨0x1234, 0x6C⟩) ∧
    (nxt (step (running [.port (.writeReg .sp 9)]))).map (fun s => s.sp) = some (some 9) ∧
    (nxt (step (running [.port (.writePC 9)]))).map (fun s => s.pc) = some 9 ∧
    (nxt (step { running [.turn true 0] with phase := .resetting .stack1, sp := some 0 })).map (fun s => s.sp) =
      some (some 0xFF) ∧
    (nxt (step { running [.turn true 0] with phase := .resetting (.vectorHigh 0x78) })).map (fun s => s.pc) =
      some 0x0078 ∧
    (nxt (step (running [.alu 2 0 0]))).map (fun s => s.sr.pack) = some 0x02 ∧
    (nxt (step (running [.terminate]))).map (fun s => s.term) = some true ∧
    (nxt (step (running [.memWrite 0x10 5]))).map (fun s => s.mem.read 0x10) = some 5 := by decide

theorem test_witness_TheLoopNeitherReadsNorWritesDataRegisters :
    (running [.turn true 0]).env.inputs = [.turn true 0] ∧
    (nxt (step { running [.turn true 0] with a := some 1, sr := SR.unpack 0xFF })).map (fun s => (s.a, s.sr, s.cycles)) =
      some (some 1, SR.unpack 0xFF, 1) := by decide

/-- Whether a step stops with this fault or refusal. -/
def stopsWith (o : Host.Outcome State Fault Refusal) (f : Option Fault) (r : Option Refusal) : Bool :=
  match o with
  | .next _ => false
  | .fault g => decide (f = some g)
  | .refused g => decide (r = some g)

theorem test_witness_StepStopsOnlyWhereTheSpecStops :
    stopsWith (step (running [.port (.readReg .y)])) (some (.registerNoValue .y)) none = true ∧
    stopsWith (step (running [.alu 9 0 0])) none (some (.aluOpReserved 9)) = true ∧
    stopsWith (step (running [.start])) none (some .startNotIdle) = true ∧
    State.reset.registersHoldValues := ⟨by decide, by decide, by decide, fun r => by cases r <;> rfl⟩

/-- The step from a state whose registers hold values that decrements SP at 0. -/
theorem test_witness_registers_keep_values :
    (nxt (step { State.reset with phase := .resetting .stack1, sp := some 0, env := (running [.turn true 0]).env })).map
      (fun s => (s.a, s.x, s.y, s.sp)) = some (some 0, some 0, some 0, some 0xFF) := by decide

theorem test_witness_WallClockReachesOnlyTheFrequency : (running [.turn true 1]).sameButTime (running [.turn true 2]) ∧
    (running [.turn true 1]).env.draws = (running [.turn true 2]).env.draws :=
  ⟨⟨_, _, _, rfl, rfl, rfl⟩, rfl⟩

/-- A state past a full window, with a wait begun. -/
def pastWindow : State :=
  { State.reset with
    cycles := 150, mark := some ⟨0, 100⟩, fetched := some 0, inWait := true, freq := 3,
    env := { inputs := [.turn true 0], clock := 0, draws := 0, bus := none, reply := none } }

theorem test_witness_EveryStepKeepsTheInvariant : pastWindow.Inv ∧ (nxt (step pastWindow)).isSome = true := by
  refine ⟨⟨by decide, by decide, ?_, fun _ => rfl, fun h => ?_, fun _ h => ?_⟩, by decide⟩
  · exact ⟨by decide, by decide, by decide, le_refl _, by decide⟩
  · exact absurd h (by decide)
  · exact absurd h (by decide)

theorem test_witness_ConstructionAndResetHaveTheInvariant :
    (launch []).mem0.wf = true ∧ 0 < (launch []).params.freqWindow := by decide

theorem test_witness_HostStartsOnceAndTerminatesAnyTime :
    (State.construct (launch [])).phase = .idle ∧ (running []).phase ≠ .idle ∧
    (running [.turn true 0]).startBlocks = true ∧ ({ running [] with term := true } : State).term = true ∧
    (nxt (step { running [.turn true 0] with term := true })).map (fun s => s.phase) = some .terminated := by decide

/-- Each of the seven reads, the stack reads with SP at 0 and without a value. -/
theorem test_witness_ResetReadsFollowTheirRules :
    ([.fetch1, .fetch2, .stack1, .stack2, .stack3, .vectorLow, .vectorHigh 0x34] : List ResetRead).all (fun k =>
      ((nxt (step { running [.turn true 0] with phase := .resetting k, sp := some 0 })).bind fun s => s.env.bus).isSome) =
      true ∧
    (nxt (step { running [.turn true 0] with phase := .resetting .stack3, sp := none })).map (fun s => (s.sp, s.phase)) =
      some (none, .resetting .vectorLow) := by decide

theorem test_witness_ResetSequenceEndsInTheResetState :
    (launch (.start :: [0, 0, 0, 0, 0, 0, 1].map (Event.turn true) ++ [.terminate])).inputs =
      .start :: [0, 0, 0, 0, 0, 0, 1].map (Event.turn true) ++ [.terminate] := by decide

/-- R40 at the launch of `State.reset`: 0x00 less three, modulo 256; so a port read of SP answers right after reset. -/
theorem test_reset_stack_pointer : State.reset.sp = some 0xFD ∧
    (nxt (portMove (.readReg .sp) State.reset)).map (fun s => s.env.reply) = some (some (.byte 0xFD)) ∧
    (State.afterReset Launch.default 0).sp = none := by decide

/-- Right after reset a port read of A, X and Y answers; in the column of R330, before the dispatcher's writes (R332), it faults. -/
theorem test_reset_registers_hold_values :
    ([.a, .x, .y] : List Reg8).all (fun r => (nxt (portMove (.readReg r) State.reset)).isSome &&
      (nxt (portMove (.readReg r) (State.afterReset Launch.ofReset 0))).isNone) = true := by decide

theorem test_witness_RegistersAtConstructionAndAfterReset :
    Launch.default.spPowerOn = none ∧ (launch []).spPowerOn = some 0x01 ∧
    (State.afterReset (launch []) 0).sp = some 0xFE := by decide

/-- No cycle, one, 99 and 100. -/
theorem test_witness_ExitTakesTheFinalFrequency :
    ([0, 1, 99, 100].map fun n => (nxt (step { running [.turn true 1] with cycles := n, term := true, freq := 7 })).map
      fun s => (s.phase, s.freq)) =
      [some (.terminated, 7), some (.terminated, 1), some (.terminated, 99), some (.terminated, 7)] := by decide +kernel

/-- The flags that AddFollowsItsRule, SubtractFollowsItsRule, DigitByDigitFormsAgree, SubtractUndoesAdd and DecimalResultsAreDigits
ask for. -/
theorem test_witness_decimal_flag_statements :
    (SR.unpack 0x08).d = true ∧ (SR.unpack 0x00).d = false ∧ (SR.unpack 0x00).c = false ∧ (SR.unpack 0x01).c = true ∧
    (SR.unpack 0x01).d = false ∧ ({ running [] with sr := SR.unpack 0x08 } : State).sr.d = true := by decide

theorem test_witness_AluLeavesTheOtherFlags :
    AluOp.logicalAnd ≠ .add ∧ AluOp.logicalAnd ≠ .subtract ∧ (SR.unpack 0xF6).c = (SR.unpack 0x00).c ∧
    (SR.unpack 0xF6).d = (SR.unpack 0x00).d := by decide

/-- The codes on either side of the last operation, and the last code. -/
theorem test_witness_AluCodesAnswerOrAreRefused :
    ([0, 8].map fun c => (nxt (aluMove c 0x81 0 (running []))).map fun s => s.env.reply) =
      [some (some (.byte 0x81)), some (some (.byte 0x40))] ∧
    ([9, 15].all fun c => stopsWith (aluMove c 0 0 (running [])) none (some (.aluOpReserved c))) = true := by decide

theorem test_witness_PortFollowsItsAccessRules :
    (running []).reg .a = none ∧ ({ running [] with a := some 5 } : State).reg .a = some 5 ∧
    (running []).reg .sp = some 0xFE := by decide

/-- The first address of the vectors, and the one below it. -/
theorem test_witness_MemoryWriteFollowsTheMasks :
    (running []).mem.wf = true ∧ (∃ m ∈ (running []).roMasks, (0xFFFA : Word) &&& m = m) ∧
    (∀ m ∈ (running []).roMasks, (0xFFF9 : Word) &&& m ≠ m) := by
  refine ⟨by decide, ⟨0xFFFA, by decide, by decide⟩, fun m hm => ?_⟩
  have h : m = 0xFFFA ∨ m = 0xFFFC := by
    simpa [running, State.afterReset, State.construct, launch, Launch.default, Config.defaultRoMasks] using hm
  rcases h with rfl | rfl <;> decide

theorem test_witness_StackPointerWrapsInItsPage :
    ({ running [] with sp := some 0 } : State).decSP.sp = some 0xFF ∧
    ({ running [] with sp := some 0xFF } : State).incSP.sp = some 0 ∧ stackAddr 0xFF = 0x01FF := by decide

theorem test_witness_OperandFormsByMode :
    ({ running [] with x := some 0xFF } : State).x = some 0xFF ∧ ({ running [] with y := some 0xFF } : State).y = some 0xFF ∧
    (running []).x = none ∧ (running []).y = none ∧
    formOperand .zeroPageY 0x01 0 0 { running [] with y := some 0xFF } = some (.address 0x0000) := by decide

end Sys2Proof.Tests
end

section
/-! PROOFS. Every step keeps the invariant `State.Inv`. The invariant is restated by phase; an update that leaves the measurement
alone keeps it by one frame lemma, and the three moves that write the measurement (reset read 7, an iteration, the exit) have a lemma
each. The step lemma then follows the moves of `step_next` and `loopTurn_next`. -/

namespace Sys2Proof.Machine

/-! ### The measurement, by phase -/

/-- Nothing has been counted, fetched or measured: what `State.measured` says before Running (R42, R253). -/
structure State.NothingMeasured (s : State) : Prop where
  mark : s.mark = none
  cycles : s.cycles = 0
  freq : s.freq = 0
  fetched : s.fetched = none

/-- The measurement point fits the cycle counter: what `State.measured` says from Running on (R264). -/
structure State.MarkFits (s : State) (m : Mark) : Prop where
  windows : s.params.freqWindow ∣ m.cycles
  past : m.cycles ≤ s.cycles
  recent : s.cycles < m.cycles + s.params.freqWindow
  time : m.time ≤ s.env.clock
  fetched : s.fetched = none ↔ s.cycles = 0

/-- The loop has been entered: Running, or Terminated. -/
def Phase.entered (p : Phase) : Prop := p = .running ∨ p = .terminated

theorem Phase.not_entered_idle : ¬ Phase.idle.entered := by simp [Phase.entered]

theorem Phase.not_entered_resetting (k : ResetRead) : ¬ (Phase.resetting k).entered := by simp [Phase.entered]

theorem State.measured_iff_nothingMeasured {s : State} (h : ¬ s.phase.entered) : s.measured ↔ s.NothingMeasured := by
  have fields : s.NothingMeasured ↔ s.mark = none ∧ s.cycles = 0 ∧ s.freq = 0 ∧ s.fetched = none :=
    ⟨fun ⟨hm, hc, hf, hb⟩ => ⟨hm, hc, hf, hb⟩, fun ⟨hm, hc, hf, hb⟩ => ⟨hm, hc, hf, hb⟩⟩
  rw [fields, State.measured]
  cases hp : s.phase with
  | idle => rfl
  | resetting k => rfl
  | running => exact absurd (.inl hp) h
  | terminated => exact absurd (.inr hp) h

theorem State.measured_iff_markFits {s : State} (h : s.phase.entered) :
    s.measured ↔ ∃ m, s.mark = some m ∧ s.MarkFits m := by
  have fields (m : Mark) : s.MarkFits m ↔ s.params.freqWindow ∣ m.cycles ∧ m.cycles ≤ s.cycles ∧
      s.cycles < m.cycles + s.params.freqWindow ∧ m.time ≤ s.env.clock ∧ (s.fetched = none ↔ s.cycles = 0) :=
    ⟨fun ⟨hd, hp, hr, ht, hb⟩ => ⟨hd, hp, hr, ht, hb⟩, fun ⟨hd, hp, hr, ht, hb⟩ => ⟨hd, hp, hr, ht, hb⟩⟩
  rw [State.measured]
  rcases h with hp | hp <;> cases hm : s.mark <;> simp [hp, fields]

/-! ### Updates that leave the measurement alone -/

/-- `t` measures as `s` does: the sequencer state, the counter, the estimate, the mark, the fetched byte and the parameters are the
same, and the clock has not gone back. -/
structure State.SameMeasurement (s t : State) : Prop where
  phase : t.phase = s.phase
  cycles : t.cycles = s.cycles
  freq : t.freq = s.freq
  mark : t.mark = s.mark
  fetched : t.fetched = s.fetched
  params : t.params = s.params
  clock : s.env.clock ≤ t.env.clock

theorem State.SameMeasurement.measured {s t : State} (h : s.SameMeasurement t) (hs : s.measured) : t.measured := by
  obtain ⟨hphase, hcycles, hfreq, hmark, hfetched, hparams, hclock⟩ := h
  by_cases he : s.phase.entered
  · obtain ⟨m, hm, fits⟩ := (State.measured_iff_markFits he).mp hs
    refine (State.measured_iff_markFits (hphase ▸ he)).mpr ⟨m, hmark ▸ hm, ?_⟩
    exact ⟨hparams ▸ fits.windows, hcycles ▸ fits.past, by simpa only [hcycles, hparams] using fits.recent,
      fits.time.trans hclock, by simpa only [hfetched, hcycles] using fits.fetched⟩
  · have blank := (State.measured_iff_nothingMeasured he).mp hs
    refine (State.measured_iff_nothingMeasured (hphase ▸ he)).mpr ?_
    exact ⟨hmark ▸ blank.mark, hcycles ▸ blank.cycles, hfreq ▸ blank.freq, hfetched ▸ blank.fetched⟩

/-- The frame rule of the invariant: what does not touch the measurement owes only what the invariant says of memory, the wait
and the request. -/
theorem State.Inv.of_sameMeasurement {s t : State} (hs : s.Inv) (h : s.SameMeasurement t) (hmem : t.mem.wf = true)
    (hwait : t.inWait = true → s.phase = .running) (hterm : s.phase = .terminated → t.term = true) : t.Inv where
  mem := hmem
  window := h.params ▸ hs.window
  measured := h.measured hs.measured
  wait := fun hw => h.phase.trans (hwait hw)
  requested := fun hp => hterm (h.phase ▸ hp)
  unmeasured := by simpa only [h.phase, h.cycles, h.params, h.freq] using hs.unmeasured

section
variable {s : State} (hs : s.Inv)
include hs

theorem State.Inv.takeEvent : s.takeEvent.Inv :=
  hs.of_sameMeasurement ⟨rfl, rfl, rfl, rfl, rfl, rfl, le_rfl⟩ hs.mem hs.wait hs.requested

theorem State.Inv.observe (now : Time) : (s.observe now).Inv := by
  have clock : s.env.clock ≤ (s.observe now).env.clock := by
    rw [State.observe_env_clock]
    split
    · next h => exact h.le
    · exact le_rfl
  exact hs.of_sameMeasurement ⟨rfl, rfl, rfl, rfl, rfl, rfl, clock⟩ hs.mem hs.wait hs.requested

theorem State.Inv.answer (r : Reply) : (s.answer r).Inv :=
  hs.of_sameMeasurement ⟨rfl, rfl, rfl, rfl, rfl, rfl, le_rfl⟩ hs.mem hs.wait hs.requested

theorem State.Inv.withSR (sr : SR) : ({ s with sr := sr } : State).Inv :=
  hs.of_sameMeasurement ⟨rfl, rfl, rfl, rfl, rfl, rfl, le_rfl⟩ hs.mem hs.wait hs.requested

theorem State.Inv.withPC (pc : Word) : ({ s with pc := pc } : State).Inv :=
  hs.of_sameMeasurement ⟨rfl, rfl, rfl, rfl, rfl, rfl, le_rfl⟩ hs.mem hs.wait hs.requested

theorem State.Inv.setReg (r : Reg8) (v : Byte) : (s.setReg r v).Inv := by
  cases r <;> exact hs.of_sameMeasurement ⟨rfl, rfl, rfl, rfl, rfl, rfl, le_rfl⟩ hs.mem hs.wait hs.requested

/-- A write keeps the invariant, since memory stays canonical (R61). -/
theorem State.Inv.memWrite (addr : Word) (v : Byte) : (s.memWrite addr v).1.Inv :=
  hs.of_sameMeasurement (by constructor <;> simp) (s.memWrite_wf addr v hs.mem) (by simpa using hs.wait)
    (by simpa using hs.requested)

theorem State.Inv.requestEnd : ({ s with term := true } : State).Inv :=
  hs.of_sameMeasurement ⟨rfl, rfl, rfl, rfl, rfl, rfl, le_rfl⟩ hs.mem hs.wait fun _ => rfl

/-- A false poll within an iteration begins the wait (R252). -/
theorem State.Inv.beginWait (hp : s.phase = .running) : ({ s with inWait := true } : State).Inv :=
  hs.of_sameMeasurement ⟨rfl, rfl, rfl, rfl, rfl, rfl, le_rfl⟩ hs.mem (fun _ => hp) hs.requested

/-- A request on the register port keeps the invariant (R29). -/
theorem State.Inv.portMove {r : PortRequest} {t : State} (h : portMove r s = .next t) : t.Inv := by
  rcases portMove_next h with ⟨reply, rfl⟩ | ⟨q, v, -, rfl⟩ | ⟨pc, -, rfl⟩ | ⟨sr, rfl⟩
  · exact hs.answer reply
  · exact hs.setReg q v
  · exact hs.withPC pc
  · exact hs.withSR sr

/-! ### The reset sequence -/

/-- No wait is begun outside Running. -/
theorem State.Inv.inWait_eq_false (hp : s.phase ≠ .running) : s.inWait = false :=
  Bool.eq_false_iff.mpr fun hw => hp (hs.wait hw)

/-- `start()` enters the reset sequence, where nothing is measured yet either (R254). -/
theorem State.Inv.start (hp : s.phase = .idle) : ({ s with phase := .resetting .fetch1 } : State).Inv := by
  have hw : s.inWait = false := hs.inWait_eq_false (by simp [hp])
  have blank := (State.measured_iff_nothingMeasured (hp ▸ Phase.not_entered_idle)).mp hs.measured
  exact {
    mem := hs.mem
    window := hs.window
    measured := (State.measured_iff_nothingMeasured (Phase.not_entered_resetting _)).mpr
      ⟨blank.mark, blank.cycles, blank.freq, blank.fetched⟩
    wait := by simp [hw]
    requested := by simp
    unmeasured := by simp }

end

/-- A reset read goes on to a reset read with the mark as it was, or enters Running with the mark taken now (R253, R258). -/
theorem State.resetRead_phase_mark (s : State) (k : ResetRead) :
    ((∃ j, (s.resetRead k).phase = .resetting j) ∧ (s.resetRead k).mark = s.mark) ∨
    ((s.resetRead k).phase = .running ∧ (s.resetRead k).mark = some { time := s.env.clock, cycles := s.cycles }) := by
  have stack (j : ResetRead) : (s.stackRead j).phase = .resetting j ∧ (s.stackRead j).mark = s.mark := by
    obtain ⟨_, _, h⟩ := s.stackRead_eq j
    rw [h]
    exact ⟨rfl, rfl⟩
  cases k with
  | fetch1 => exact .inl ⟨⟨_, rfl⟩, rfl⟩
  | fetch2 => exact .inl ⟨⟨_, rfl⟩, rfl⟩
  | stack1 => exact .inl ⟨⟨_, (stack .stack2).1⟩, (stack .stack2).2⟩
  | stack2 => exact .inl ⟨⟨_, (stack .stack3).1⟩, (stack .stack3).2⟩
  | stack3 => exact .inl ⟨⟨_, (stack .vectorLow).1⟩, (stack .vectorLow).2⟩
  | vectorLow => exact .inl ⟨⟨_, rfl⟩, rfl⟩
  | vectorHigh lo => exact .inr ⟨rfl, rfl⟩

/-- A reset read keeps the invariant: read 7 sets the mark at cycle 0, inside the first window. -/
theorem State.Inv.resetRead {s : State} (hs : s.Inv) {k : ResetRead} (hp : s.phase = .resetting k) :
    (s.resetRead k).Inv := by
  have hw : s.inWait = false := hs.inWait_eq_false (by simp [hp])
  have blank := (State.measured_iff_nothingMeasured (hp ▸ Phase.not_entered_resetting k)).mp hs.measured
  have stage := s.resetRead_phase_mark k
  obtain ⟨pc, sp, ph, mk, bus, d, heq⟩ := s.resetRead_eq k
  rw [heq] at stage ⊢
  obtain ⟨⟨j, rfl⟩, rfl⟩ | ⟨rfl, rfl⟩ := stage
  · exact {
      mem := hs.mem
      window := hs.window
      measured := (State.measured_iff_nothingMeasured (Phase.not_entered_resetting _)).mpr
        ⟨blank.mark, blank.cycles, blank.freq, blank.fetched⟩
      wait := by simp [hw]
      requested := by simp
      unmeasured := by simp }
  · have fits : s.MarkFits { time := s.env.clock, cycles := s.cycles } :=
      ⟨by simp [blank.cycles], le_rfl, Nat.lt_add_of_pos_right hs.window, le_rfl, by simp [blank.fetched, blank.cycles]⟩
    exact {
      mem := hs.mem
      window := hs.window
      measured := (State.measured_iff_markFits (.inl rfl)).mpr
        ⟨_, rfl, fits.windows, fits.past, fits.recent, fits.time, fits.fetched⟩
      wait := by simp
      requested := by simp
      unmeasured := fun _ _ => blank.freq }

/-! ### The Running iteration -/

/-- After one more cycle the mark still fits, or the window is full and the mark taken now fits. -/
theorem State.MarkFits.iteration {s : State} {m : Mark} (fits : s.MarkFits m) (hm : s.mark = some m)
    (hwin : 0 < s.params.freqWindow) (op : Byte) :
    ∃ m', (s.iteration op).mark = some m' ∧ (s.iteration op).MarkFits m' := by
  obtain ⟨hwindows, hpast, hrecent, htime, -⟩ := fits
  by_cases hfull : s.cycles + 1 = m.cycles + s.params.freqWindow
  · have hcount : s.params.freqWindow ∣ s.cycles + 1 := hfull ▸ hwindows.add (Nat.dvd_refl _)
    rw [State.iteration, State.measureWindow_of_full (s := s.fetchByte op) hm hfull]
    exact ⟨_, rfl, by simpa using hcount, by simp, by simpa using hwin, by simp, by simp⟩
  · have not_full : ∀ n, (s.fetchByte op).mark = some n → s.cycles + 1 ≠ n.cycles + s.params.freqWindow := by
      intro n hn
      obtain rfl : m = n := Option.some.inj (hm.symm.trans hn)
      exact hfull
    rw [State.iteration, State.measureWindow_of_not_full not_full]
    exact ⟨m, hm, hwindows, Nat.le_succ_of_le hpast, Nat.lt_of_le_of_ne hrecent hfull, htime, by simp⟩

/-- No window is full before the first FREQ_WINDOW cycles, so nothing is estimated there. -/
theorem State.iteration_freq_of_lt {s : State} {op : Byte} (h : s.cycles + 1 < s.params.freqWindow) :
    (s.iteration op).freq = s.freq := by
  have not_full : ∀ m, (s.fetchByte op).mark = some m → s.cycles + 1 ≠ m.cycles + s.params.freqWindow := by
    intro m _
    omega
  rw [State.iteration, State.measureWindow_of_not_full not_full, State.fetchByte_freq]

/-- The iteration of a granted pulse keeps the invariant (R260, R264). -/
theorem State.Inv.iteration {s : State} (hs : s.Inv) (hp : s.phase = .running) (op : Byte) : (s.iteration op).Inv := by
  have phase : (s.iteration op).phase = .running := by simpa [State.iteration] using hp
  obtain ⟨m, hm, fits⟩ := (State.measured_iff_markFits (.inl hp)).mp hs.measured
  refine {
    mem := by simpa [State.iteration] using hs.mem
    window := by simpa [State.iteration] using hs.window
    measured := (State.measured_iff_markFits (.inl phase)).mpr (fits.iteration hm hs.window op)
    wait := by simp [State.iteration]
    requested := by simp [phase]
    unmeasured := fun _ hlt => ?_ }
  have hlt : s.cycles + 1 < s.params.freqWindow := by simpa [State.iteration] using hlt
  rw [State.iteration_freq_of_lt hlt]
  exact hs.unmeasured hp (by omega)

/-- The exit keeps the invariant: it is taken on a request and outside a wait, and writes only the estimate (R262, R265). -/
theorem State.Inv.exitLoop {s : State} (hs : s.Inv) (hp : s.phase = .running) (hterm : s.term = true)
    (hw : s.inWait = false) : s.exitLoop.Inv := by
  obtain ⟨f, d, heq⟩ := s.finalFrequency_eq
  rw [State.exitLoop, heq]
  obtain ⟨m, hm, fits⟩ := (State.measured_iff_markFits (.inl hp)).mp hs.measured
  exact {
    mem := hs.mem
    window := hs.window
    measured := (State.measured_iff_markFits (.inr rfl)).mpr
      ⟨m, hm, fits.windows, fits.past, fits.recent, fits.time, fits.fetched⟩
    wait := by simp [hw]
    requested := fun _ => hterm
    unmeasured := by simp }

/-- The CPU loop's turn keeps the invariant, whatever its poll answers. -/
theorem State.Inv.loopTurn {s t : State} (hs : s.Inv) {pulse : Bool} (h : loopTurn exec pulse s = .next t) : t.Inv := by
  rcases loopTurn_next h with ⟨rfl, -⟩ | ⟨hp, -, -, rfl⟩ | ⟨k, hp, -, rfl⟩ | ⟨hp, hterm, hw, rfl⟩ | ⟨hp, -, -, hrun⟩
  · exact hs
  · exact hs.beginWait hp
  · exact hs.resetRead hp
  · exact hs.exitLoop hp hterm hw
  · obtain ⟨op, -, rfl⟩ := exec_next hrun
    exact hs.iteration hp op

/-- Settles O34: the invariant survives taking a move from the queue, and then each of the eight moves. -/
theorem everyStepKeepsTheInvariant : Obligations.EveryStepKeepsTheInvariant := by
  intro s t hs hstep
  have taken : s.takeEvent.Inv := hs.takeEvent
  rcases step_next hstep with ⟨pulse, now, -, hturn⟩ | ⟨-, hp, rfl⟩ | ⟨-, rfl⟩ | ⟨-, rfl⟩ | ⟨r, -, hport⟩ |
    ⟨code, a, b, op, -, -, rfl⟩ | ⟨addr, -, rfl⟩ | ⟨addr, v, -, rfl⟩
  · exact (taken.observe now).loopTurn hturn
  · exact taken.start hp
  · exact taken.requestEnd
  · exact taken.answer _
  · exact taken.portMove hport
  · exact (taken.withSR _).answer _
  · exact taken.answer _
  · exact (taken.memWrite addr v).answer _

end Sys2Proof.Machine
end

section
/-! PROOFS. The state of the CORE: who writes each of its fields. `StepEffect` lists once what a step leaves behind, in terms of the state
before it; each statement on a field then follows its cases. -/

namespace Sys2Proof.Machine

/-! ### Every opcode byte runs as an iteration -/

/-- The decoder's reading of a byte is encoded by that byte. -/
theorem encode_decodeInstr (op : Byte) : encode (decodeInstr op) = some op := by
  cases h : decodeByte op with
  | none => simp [decodeInstr_of_illegal h, encode, (decodeByte_eq_none_iff op).mp h]
  | some form =>
    have hop : opcodeOf form.1 form.2 = some op := opcodeOf_decodeByte op form h
    rw [decodeInstr_of_decodeByte h, encode_of_form (Instr.form_ofForm _ _ (by simp [hop])), hop]

/-- Running what a byte decodes to is the iteration that fetches the byte, an illegal one included (R261, R301). -/
theorem exec_decodeInstr (op : Byte) (s : State) : exec (decodeInstr op) s = .next (s.iteration op) := by
  rw [exec_eq_present, present_of_encode (encode_decodeInstr op)]

/-! ### What the loop's operations leave -/

section
variable (s : State)

@[simp] theorem State.iteration_pc (op : Byte) : (s.iteration op).pc = s.pc + 1 := by simp [State.iteration]
@[simp] theorem State.iteration_a (op : Byte) : (s.iteration op).a = s.a := by simp [State.iteration]
@[simp] theorem State.iteration_x (op : Byte) : (s.iteration op).x = s.x := by simp [State.iteration]
@[simp] theorem State.iteration_y (op : Byte) : (s.iteration op).y = s.y := by simp [State.iteration]
@[simp] theorem State.iteration_sp (op : Byte) : (s.iteration op).sp = s.sp := by simp [State.iteration]
@[simp] theorem State.iteration_sr (op : Byte) : (s.iteration op).sr = s.sr := by simp [State.iteration]
@[simp] theorem State.iteration_phase (op : Byte) : (s.iteration op).phase = s.phase := by simp [State.iteration]
@[simp] theorem State.iteration_term (op : Byte) : (s.iteration op).term = s.term := by simp [State.iteration]
@[simp] theorem State.iteration_cycles (op : Byte) : (s.iteration op).cycles = s.cycles + 1 := by simp [State.iteration]
@[simp] theorem State.iteration_fetched (op : Byte) : (s.iteration op).fetched = some op := by simp [State.iteration]

@[simp] theorem State.exitLoop_pc : s.exitLoop.pc = s.pc := by simp [State.exitLoop]
@[simp] theorem State.exitLoop_a : s.exitLoop.a = s.a := by simp [State.exitLoop]
@[simp] theorem State.exitLoop_x : s.exitLoop.x = s.x := by simp [State.exitLoop]
@[simp] theorem State.exitLoop_y : s.exitLoop.y = s.y := by simp [State.exitLoop]
@[simp] theorem State.exitLoop_sp : s.exitLoop.sp = s.sp := by simp [State.exitLoop]
@[simp] theorem State.exitLoop_sr : s.exitLoop.sr = s.sr := by simp [State.exitLoop]
@[simp] theorem State.exitLoop_term : s.exitLoop.term = s.term := by simp [State.exitLoop]
@[simp] theorem State.exitLoop_cycles : s.exitLoop.cycles = s.cycles := by simp [State.exitLoop]
@[simp] theorem State.exitLoop_fetched : s.exitLoop.fetched = s.fetched := by simp [State.exitLoop]

@[simp] theorem State.resetRead_a (k : ResetRead) : (s.resetRead k).a = s.a := by
  obtain ⟨_, _, _, _, _, _, h⟩ := s.resetRead_eq k
  rw [h]
@[simp] theorem State.resetRead_x (k : ResetRead) : (s.resetRead k).x = s.x := by
  obtain ⟨_, _, _, _, _, _, h⟩ := s.resetRead_eq k
  rw [h]
@[simp] theorem State.resetRead_y (k : ResetRead) : (s.resetRead k).y = s.y := by
  obtain ⟨_, _, _, _, _, _, h⟩ := s.resetRead_eq k
  rw [h]
@[simp] theorem State.resetRead_sr (k : ResetRead) : (s.resetRead k).sr = s.sr := by
  obtain ⟨_, _, _, _, _, _, h⟩ := s.resetRead_eq k
  rw [h]
@[simp] theorem State.resetRead_term (k : ResetRead) : (s.resetRead k).term = s.term := by
  obtain ⟨_, _, _, _, _, _, h⟩ := s.resetRead_eq k
  rw [h]
@[simp] theorem State.resetRead_cycles (k : ResetRead) : (s.resetRead k).cycles = s.cycles := by
  obtain ⟨_, _, _, _, _, _, h⟩ := s.resetRead_eq k
  rw [h]
@[simp] theorem State.resetRead_fetched (k : ResetRead) : (s.resetRead k).fetched = s.fetched := by
  obtain ⟨_, _, _, _, _, _, h⟩ := s.resetRead_eq k
  rw [h]

theorem State.stackRead_pc_sp (k : ResetRead) :
    (s.stackRead k).pc = s.pc ∧ (s.stackRead k).sp = s.sp.map fun v => v - 1 := by
  obtain ⟨bus, draws, h⟩ := s.stackRead_eq k
  rw [h]
  exact ⟨rfl, rfl⟩

/-- Reset reads 3, 4 and 5 decrement SP, and the others leave it (R256). -/
theorem State.resetRead_sp (k : ResetRead) :
    (s.resetRead k).sp = s.sp ∨
    (k = .stack1 ∨ k = .stack2 ∨ k = .stack3) ∧ (s.resetRead k).sp = s.sp.map fun v => v - 1 := by
  cases k with
  | stack1 => exact .inr ⟨by simp, (s.stackRead_pc_sp _).2⟩
  | stack2 => exact .inr ⟨by simp, (s.stackRead_pc_sp _).2⟩
  | stack3 => exact .inr ⟨by simp, (s.stackRead_pc_sp _).2⟩
  | fetch1 | fetch2 | vectorLow | vectorHigh lo => exact .inl rfl

/-- Reset read 7 puts the vector in PC and enters Running, and the others leave PC (R257, R258). -/
theorem State.resetRead_pc (k : ResetRead) :
    (s.resetRead k).pc = s.pc ∨
    ∃ lo, k = .vectorHigh lo ∧ (s.resetRead k).phase = .running ∧
      (s.resetRead k).pc = joinBytes (s.mem.read (s.params.resetVec + 1)) lo := by
  cases k with
  | vectorHigh lo => exact .inr ⟨lo, rfl, rfl, rfl⟩
  | stack1 => exact .inl (s.stackRead_pc_sp _).1
  | stack2 => exact .inl (s.stackRead_pc_sp _).1
  | stack3 => exact .inl (s.stackRead_pc_sp _).1
  | fetch1 | fetch2 | vectorLow => exact .inl rfl

/-- A read of the register after a store in a register. -/
theorem State.reg_setReg (q r : Reg8) (v : Byte) : (s.setReg q v).reg r = if r = q then some v else s.reg r := by
  cases q <;> cases r <;> rfl

end

/-! ### What a step leaves behind -/

/-- The state `t` is what one move of one agent leaves of `s`: a constructor for each way a move can end. -/
inductive StepEffect (s : State) : State → Prop
  | restingTurn (pulse : Bool) (now : Time) (move : s.nextEvent = .turn pulse now) (phase : s.phase ≠ .running) :
    StepEffect s (s.takeEvent.observe now)
  | beginWait (now : Time) (move : s.nextEvent = .turn false now) (phase : s.phase = .running)
      (inside : (s.term && !s.inWait) = false) :
    StepEffect s { s.takeEvent.observe now with inWait := true }
  | resetRead (now : Time) (k : ResetRead) (move : s.nextEvent = .turn true now) (phase : s.phase = .resetting k) :
    StepEffect s ((s.takeEvent.observe now).resetRead k)
  | exit (pulse : Bool) (now : Time) (move : s.nextEvent = .turn pulse now) (phase : s.phase = .running)
      (requested : s.term = true) (top : s.inWait = false) :
    StepEffect s (s.takeEvent.observe now).exitLoop
  | iteration (now : Time) (move : s.nextEvent = .turn true now) (phase : s.phase = .running)
      (inside : (s.term && !s.inWait) = false) :
    StepEffect s ((s.takeEvent.observe now).iteration (s.mem.read s.pc))
  | start (move : s.nextEvent = .start) (phase : s.phase = .idle) :
    StepEffect s { s.takeEvent with phase := .resetting .fetch1 }
  | terminate (move : s.nextEvent = .terminate) : StepEffect s { s.takeEvent with term := true }
  | frequency (move : s.nextEvent = .frequency) : StepEffect s (s.takeEvent.answer (.hz s.freq))
  | portRead (r : PortRequest) (reply : Reply) (move : s.nextEvent = .port r) : StepEffect s (s.takeEvent.answer reply)
  | writeReg (q : Reg8) (v : Byte) (move : s.nextEvent = .port (.writeReg q v)) : StepEffect s (s.takeEvent.setReg q v)
  | writePC (v : Word) (move : s.nextEvent = .port (.writePC v)) : StepEffect s { s.takeEvent with pc := v }
  | writeSR (r : PortRequest) (sr : SR) (move : s.nextEvent = .port r) : StepEffect s { s.takeEvent with sr := sr }
  | alu (code : BitVec 4) (a b : Byte) (op : AluOp) (move : s.nextEvent = .alu code a b)
      (operation : aluOpOfCode code = some op) :
    StepEffect s ({ s.takeEvent with sr := (op.run a b s.sr).2 }.answer (.byte (op.run a b s.sr).1))
  | memRead (addr : Word) (move : s.nextEvent = .memRead addr) :
    StepEffect s (s.takeEvent.answer (.byte (s.mem.read addr)))
  | memWrite (addr : Word) (v : Byte) (move : s.nextEvent = .memWrite addr v) :
    StepEffect s ((s.takeEvent.memWrite addr v).1.answer (.accepted (s.takeEvent.memWrite addr v).2))

theorem StepEffect.of_turn {s t : State} {pulse : Bool} {now : Time} (move : s.nextEvent = .turn pulse now)
    (h : loopTurn exec pulse (s.takeEvent.observe now) = .next t) : StepEffect s t := by
  rcases loopTurn_next h with ⟨rfl, hp⟩ | ⟨hp, rfl, hin, rfl⟩ | ⟨k, hp, rfl, rfl⟩ |
    ⟨hp, hterm, hw, rfl⟩ | ⟨hp, rfl, hin, hrun⟩
  · exact .restingTurn pulse now move hp
  · exact .beginWait now move hp hin
  · exact .resetRead now k move hp
  · exact .exit pulse now move hp hterm hw
  · rw [exec_decodeInstr] at hrun
    obtain rfl := Host.Outcome.next.inj hrun
    exact .iteration now move hp hin

theorem StepEffect.of_port {s t : State} {r : PortRequest} (move : s.nextEvent = .port r)
    (h : portMove r s.takeEvent = .next t) : StepEffect s t := by
  rcases portMove_next h with ⟨reply, rfl⟩ | ⟨q, v, rfl, rfl⟩ | ⟨v, rfl, rfl⟩ | ⟨sr, rfl⟩
  · exact .portRead r reply move
  · exact .writeReg q v move
  · exact .writePC v move
  · exact .writeSR r sr move

/-- A step that answers a next state has one of the listed effects. -/
theorem stepEffect_of_step {s t : State} (h : step s = .next t) : StepEffect s t := by
  rcases step_next h with ⟨pulse, now, move, hturn⟩ | ⟨move, hp, rfl⟩ | ⟨move, rfl⟩ | ⟨move, rfl⟩ | ⟨r, move, hport⟩ |
    ⟨code, a, b, op, move, hop, rfl⟩ | ⟨addr, move, rfl⟩ | ⟨addr, v, move, rfl⟩
  · exact .of_turn move hturn
  · exact .start move hp
  · exact .terminate move
  · exact .frequency move
  · exact .of_port move hport
  · exact .alu code a b op move hop
  · exact .memRead addr move
  · exact .memWrite addr v move

/-! ### Who writes each field -/

/-- Settles O25: of the effects of a step, only the iteration touches what is fetched or the counter. -/
theorem onlyAnIterationFetchesAndCounts : Obligations.OnlyAnIterationFetchesAndCounts := by
  intro s t hstep
  cases stepEffect_of_step hstep with
  | iteration now move phase inside => exact .inr ⟨phase, ⟨now, move⟩, by simp [State.decoded, phase]⟩
  | _ => exact .inl (by simp [State.decoded])

/-- Settles O26: of the effects of a step, only `terminate()` touches the flag. -/
theorem terminationFlagIsSticky : Obligations.TerminationFlagIsSticky := by
  intro s t hstep
  cases stepEffect_of_step hstep with
  | terminate move => simp [move]
  | _ => simp [*]

/-- The writers of an 8-bit register: a port write of that register, and for SP reset reads 3 to 5. -/
theorem StepEffect.reg_cases {s t : State} (h : StepEffect s t) (r : Reg8) :
    t.reg r = s.reg r ∨ (∃ v, s.nextEvent = .port (.writeReg r v) ∧ t.reg r = some v) ∨
    (r = .sp ∧ (∃ now, s.nextEvent = .turn true now) ∧
      (s.phase = .resetting .stack1 ∨ s.phase = .resetting .stack2 ∨ s.phase = .resetting .stack3) ∧
      t.sp = s.sp.map fun v => v - 1) := by
  cases h with
  | writeReg q v move =>
    rw [State.reg_setReg]
    split
    · next hq => exact .inr (.inl ⟨v, hq ▸ move, rfl⟩)
    · exact .inl (by cases r <;> rfl)
  | resetRead now k move phase =>
    cases r with
    | sp =>
      rcases (s.takeEvent.observe now).resetRead_sp k with same | ⟨hk, less⟩
      · exact .inl same
      · exact .inr (.inr ⟨rfl, ⟨now, move⟩, by simpa [phase] using hk, less⟩)
    | a | x | y => exact .inl (by simp [State.reg])
  | _ => exact .inl (by cases r <;> simp [State.reg])

/-- The writers of A, X and Y: the port alone. -/
theorem StepEffect.reg_cases_of_ne_sp {s t : State} (h : StepEffect s t) {r : Reg8} (hr : r ≠ .sp) :
    t.reg r = s.reg r ∨ ∃ v, s.nextEvent = .port (.writeReg r v) ∧ t.reg r = some v := by
  rcases h.reg_cases r with same | written | ⟨hsp, -⟩
  · exact .inl same
  · exact .inr written
  · exact absurd hsp hr

/-- Settles O27, register by register. -/
theorem registersChangeOnlyThroughThePort : Obligations.RegistersChangeOnlyThroughThePort := by
  intro s t hstep
  have effect := stepEffect_of_step hstep
  refine ⟨effect.reg_cases_of_ne_sp (r := .a) (by decide), effect.reg_cases_of_ne_sp (r := .x) (by decide),
    effect.reg_cases_of_ne_sp (r := .y) (by decide), ?_⟩
  rcases effect.reg_cases .sp with same | written | ⟨-, reset⟩
  · exact .inl same
  · exact .inr (.inl written)
  · exact .inr (.inr reset)

/-- Settles O28: of the effects of a step, only the iteration, reset read 7 and the port's write touch PC. -/
theorem programCounterHasThreeWriters : Obligations.ProgramCounterHasThreeWriters := by
  intro s t hstep
  cases stepEffect_of_step hstep with
  | iteration now move phase inside => exact .inr (.inl ⟨⟨now, move⟩, phase, by simp⟩)
  | writePC v move => exact .inr (.inr (.inl ⟨v, move, rfl⟩))
  | resetRead now k move phase =>
    rcases (s.takeEvent.observe now).resetRead_pc k with same | ⟨lo, rfl, running, vector⟩
    · exact .inl same
    · exact .inr (.inr (.inr ⟨⟨now, move⟩, lo, phase, running, vector⟩))
  | _ => exact .inl (by simp)

/-- Settles O29: an ALU operation keeps D, I and B, and every effect but that and the port's keeps SR. -/
theorem flagsChangeOnlyByAluAndPort : Obligations.FlagsChangeOnlyByAluAndPort := by
  intro s t hstep
  cases stepEffect_of_step hstep with
  | alu code a b op move operation => exact ⟨.inr (.inl ⟨code, a, b, move⟩), .inl (op.run_keeps_context a b s.sr)⟩
  | portRead r reply move => exact ⟨.inr (.inr ⟨r, move⟩), .inr ⟨r, move⟩⟩
  | writeReg q v move => exact ⟨.inr (.inr ⟨_, move⟩), .inr ⟨_, move⟩⟩
  | writePC v move => exact ⟨.inr (.inr ⟨_, move⟩), .inr ⟨_, move⟩⟩
  | writeSR r sr move => exact ⟨.inr (.inr ⟨r, move⟩), .inr ⟨r, move⟩⟩
  | _ => exact ⟨.inl (by simp), .inl (by simp)⟩

/-! ### The loop and the data registers -/

/-- `s` with other values in A, X, Y and SR. -/
def State.withData (s : State) (a x y : Option Byte) (sr : SR) : State := { s with a := a, x := x, y := y, sr := sr }

/-- What the CPU loop's turn makes of a state: `loopTurn` with the instruction at PC run. -/
def State.afterTurn (s : State) (pulse : Bool) : State :=
  match s.phase with
  | .idle | .terminated => s
  | .resetting k => if pulse then s.resetRead k else s
  | .running =>
    if s.term && !s.inWait then s.exitLoop
    else if pulse then s.iteration (s.mem.read s.pc)
    else { s with inWait := true }

/-- The loop's turn always answers a next state: no byte it can fetch is refused (R301). -/
theorem loopTurn_exec (s : State) (pulse : Bool) : loopTurn exec pulse s = .next (s.afterTurn pulse) := by
  unfold loopTurn State.afterTurn
  cases s.phase with
  | idle => rfl
  | terminated => rfl
  | resetting k => cases pulse <;> rfl
  | running => cases s.term && !s.inWait <;> cases pulse <;> simp [exec_decodeInstr]

theorem step_of_turn {s : State} {pulse : Bool} {now : Time} (move : s.nextEvent = .turn pulse now) :
    step s = .next ((s.takeEvent.observe now).afterTurn pulse) := by
  simp only [step, move, agentMove, loopTurn_exec]

section
variable (s : State) (a x y : Option Byte) (sr : SR)

theorem State.estimate_withData (n : Nat) (since : Time) :
    (s.withData a x y sr).estimate n since = (s.estimate n since).withData a x y sr := by
  by_cases h : since < s.env.clock <;> simp [State.estimate, State.withData, h]

theorem State.measureWindow_withData :
    (s.withData a x y sr).measureWindow = s.measureWindow.withData a x y sr := by
  cases hm : s.mark with
  | none => simp [State.measureWindow, State.withData, hm]
  | some m =>
    by_cases full : s.cycles = m.cycles + s.params.freqWindow
    · rw [State.measureWindow_of_full hm full, State.measureWindow_of_full (s := s.withData a x y sr) hm full]
      rw [State.estimate_withData]
      rfl
    · have not_full : ∀ n, s.mark = some n → s.cycles ≠ n.cycles + s.params.freqWindow := by
        intro n hn
        obtain rfl := Option.some.inj (hm.symm.trans hn)
        exact full
      rw [State.measureWindow_of_not_full not_full, State.measureWindow_of_not_full (s := s.withData a x y sr) not_full]

theorem State.finalFrequency_withData :
    (s.withData a x y sr).finalFrequency = s.finalFrequency.withData a x y sr := by
  cases hm : s.mark with
  | none => simp [State.finalFrequency, State.withData, hm]
  | some m =>
    by_cases h : 0 < s.cycles ∧ s.cycles < s.params.freqWindow
    · have := s.estimate_withData a x y sr s.cycles m.time
      simpa [State.finalFrequency, State.withData, hm, h] using this
    · simp [State.finalFrequency, State.withData, hm, h]

theorem State.stackRead_withData (k : ResetRead) :
    (s.withData a x y sr).stackRead k = (s.stackRead k).withData a x y sr := by
  cases h : s.sp <;> simp [State.stackRead, State.withData, State.strobe, State.decSP, h]

theorem State.resetRead_withData (k : ResetRead) :
    (s.withData a x y sr).resetRead k = (s.resetRead k).withData a x y sr := by
  cases k with
  | stack1 | stack2 | stack3 => exact s.stackRead_withData a x y sr _
  | fetch1 | fetch2 | vectorLow | vectorHigh lo => rfl

theorem State.iteration_withData (op : Byte) :
    (s.withData a x y sr).iteration op = (s.iteration op).withData a x y sr :=
  (s.fetchByte op).measureWindow_withData a x y sr

theorem State.exitLoop_withData : (s.withData a x y sr).exitLoop = s.exitLoop.withData a x y sr := by
  rw [State.exitLoop, State.finalFrequency_withData]
  rfl

/-- The loop's turn commutes with a change of A, X, Y and SR: it neither reads nor writes them. -/
theorem State.afterTurn_withData (pulse : Bool) :
    (s.withData a x y sr).afterTurn pulse = (s.afterTurn pulse).withData a x y sr := by
  have phase : (s.withData a x y sr).phase = s.phase := rfl
  unfold State.afterTurn
  rw [phase]
  cases s.phase with
  | idle => rfl
  | terminated => rfl
  | resetting k =>
    cases pulse with
    | false => rfl
    | true => exact s.resetRead_withData a x y sr k
  | running =>
    have check : ((s.withData a x y sr).term && !(s.withData a x y sr).inWait) = (s.term && !s.inWait) := rfl
    simp only [check]
    split
    · exact s.exitLoop_withData a x y sr
    · cases pulse with
      | false => rfl
      | true => exact s.iteration_withData a x y sr _

end

/-- The loop's turn keeps A, X, Y and SR: it commutes with the change that puts in the values they have. -/
theorem State.afterTurn_keeps_data (s : State) (pulse : Bool) :
    (s.afterTurn pulse).a = s.a ∧ (s.afterTurn pulse).x = s.x ∧ (s.afterTurn pulse).y = s.y ∧
    (s.afterTurn pulse).sr = s.sr := by
  have keeps : s.afterTurn pulse = (s.afterTurn pulse).withData s.a s.x s.y s.sr :=
    s.afterTurn_withData s.a s.x s.y s.sr pulse
  rw [keeps]
  exact ⟨rfl, rfl, rfl, rfl⟩

/-- Settles O31: the turn commutes with a change of the data registers. -/
theorem theLoopNeitherReadsNorWritesDataRegisters : Obligations.TheLoopNeitherReadsNorWritesDataRegisters := by
  intro s a x y sr pulse now rest hinputs
  have move : s.nextEvent = .turn pulse now := State.nextEvent_of_inputs hinputs
  have move' : (s.withData a x y sr).nextEvent = .turn pulse now := move
  obtain ⟨ha, hx, hy, hsr⟩ := (s.takeEvent.observe now).afterTurn_keeps_data pulse
  exact ⟨_, step_of_turn move, ha, hx, hy, hsr,
    (step_of_turn move').trans (congrArg _ ((s.takeEvent.observe now).afterTurn_withData a x y sr pulse))⟩

/-! ### Where a step stops -/

theorem nine_le_of_aluOpOfCode_eq_none : ∀ {code : BitVec 4}, aluOpOfCode code = none → 9 ≤ code.toNat := by decide

/-- `start()` is refused outside Idle (R254). -/
theorem hostStart_of_ne_idle {s : State} (h : s.phase ≠ .idle) : hostStart s = .refused .startNotIdle := by
  unfold hostStart
  split
  · contradiction
  · rfl

theorem portMove_readReg_of_none {s : State} {r : Reg8} (h : s.reg r = none) :
    portMove (.readReg r) s = .fault (.registerNoValue r) := by
  simp [portMove, h]

theorem portMove_readReg_of_some {s : State} {r : Reg8} {v : Byte} (h : s.reg r = some v) :
    portMove (.readReg r) s = .next (s.answer (.byte v)) := by
  simp [portMove, h]

theorem State.reg_takeEvent (s : State) (r : Reg8) : s.takeEvent.reg r = s.reg r := by cases r <;> rfl

/-- How a step can end: with a next state, or in one of the three stops of the spec (R31, R210, R254). -/
theorem step_ends (s : State) :
    (∃ t, step s = .next t) ∨
    (∃ r, s.nextEvent = .port (.readReg r) ∧ s.reg r = none ∧ step s = .fault (.registerNoValue r)) ∨
    (∃ code a b, s.nextEvent = .alu code a b ∧ 9 ≤ code.toNat ∧ step s = .refused (.aluOpReserved code)) ∨
    (s.nextEvent = .start ∧ s.phase ≠ .idle ∧ step s = .refused .startNotIdle) := by
  cases move : s.nextEvent with
  | turn pulse now => exact .inl ⟨_, step_of_turn move⟩
  | start =>
    have hstep : step s = hostStart s.takeEvent := by simp only [step, move, agentMove]
    by_cases hp : s.phase = .idle
    · exact .inl ⟨_, by rw [hstep, hostStart, State.takeEvent_phase, hp]⟩
    · exact .inr (.inr (.inr ⟨rfl, hp, hstep.trans (hostStart_of_ne_idle hp)⟩))
  | port r =>
    have hstep : step s = portMove r s.takeEvent := by simp only [step, move, agentMove]
    cases r with
    | readReg r =>
      cases hr : s.reg r with
      | none => exact .inr (.inl ⟨r, rfl, hr, hstep.trans (portMove_readReg_of_none (s.reg_takeEvent r ▸ hr))⟩)
      | some v => exact .inl ⟨_, hstep.trans (portMove_readReg_of_some (s.reg_takeEvent r ▸ hr))⟩
    | _ => exact .inl ⟨_, hstep⟩
  | alu code a b =>
    have hstep : step s = aluMove code a b s.takeEvent := by simp only [step, move, agentMove]
    cases hop : aluOpOfCode code with
    | none => exact .inr (.inr (.inl ⟨code, a, b, rfl, nine_le_of_aluOpOfCode_eq_none hop, by rw [hstep, aluMove, hop]⟩))
    | some op => exact .inl ⟨_, by rw [hstep, aluMove, hop]⟩
  | terminate | frequency | memRead addr | memWrite addr v => exact .inl ⟨_, by simp only [step, move]; rfl⟩

/-- No step takes a register's value away. -/
theorem StepEffect.registersHoldValues {s t : State} (h : StepEffect s t) (hs : s.registersHoldValues) :
    t.registersHoldValues := by
  intro r
  rcases h.reg_cases r with same | ⟨v, -, written⟩ | ⟨rfl, -, -, less⟩
  · exact same ▸ hs r
  · simp [written]
  · have value : s.sp.isSome = true := hs .sp
    change t.sp.isSome = true
    simpa [less] using value

theorem State.reset_registersHoldValues : State.reset.registersHoldValues := by
  intro r
  cases r <;> rfl

theorem step_fault {s : State} {f : Fault} (h : step s = .fault f) :
    ∃ r, s.nextEvent = .port (.readReg r) ∧ s.reg r = none ∧ f = .registerNoValue r := by
  rcases step_ends s with ⟨t, ht⟩ | ⟨r, move, hr, hf⟩ | ⟨code, a, b, -, -, href⟩ | ⟨-, -, href⟩
  · simp [ht] at h
  · exact ⟨r, move, hr, Host.Outcome.fault.inj (h.symm.trans hf)⟩
  · simp [href] at h
  · simp [href] at h

theorem step_refused {s : State} {r : Refusal} (h : step s = .refused r) :
    (∃ code a b, s.nextEvent = .alu code a b ∧ 9 ≤ code.toNat ∧ r = .aluOpReserved code) ∨
    (s.nextEvent = .start ∧ s.phase ≠ .idle ∧ r = .startNotIdle) := by
  rcases step_ends s with ⟨t, ht⟩ | ⟨_, -, -, hf⟩ | ⟨code, a, b, move, hcode, href⟩ | ⟨move, hp, href⟩
  · simp [ht] at h
  · simp [hf] at h
  · exact .inl ⟨code, a, b, move, hcode, Host.Outcome.refused.inj (h.symm.trans href)⟩
  · exact .inr ⟨move, hp, Host.Outcome.refused.inj (h.symm.trans href)⟩

/-- Settles O32, from the ways a step can end and the writers of the registers. -/
theorem stepStopsOnlyWhereTheSpecStops : Obligations.StepStopsOnlyWhereTheSpecStops := by
  intro s
  refine ⟨fun f => step_fault, fun r => step_refused, fun hs => ⟨fun f hf => ?_, fun t hstep => ?_⟩,
    State.reset_registersHoldValues⟩
  · obtain ⟨r, -, hr, -⟩ := step_fault hf
    simpa [hr] using hs r
  · exact (stepEffect_of_step hstep).registersHoldValues hs

end Sys2Proof.Machine
end

section
/-! PROOFS. The status register, the register port and the values at construction and after reset. -/

namespace Sys2Proof.Machine

/-! ### The ALU's flags -/

/-- Only add and subtract write V. -/
theorem AluOp.run_keeps_v {op : AluOp} (hadd : op ≠ .add) (hsub : op ≠ .subtract) (a b : Byte) (s : SR) :
    (op.run a b s).2.v = s.v := by
  cases op with
  | add => exact absurd rfl hadd
  | subtract => exact absurd rfl hsub
  | _ => rfl

/-- The logical operations leave C. -/
theorem AluOp.run_keeps_c {op : AluOp} (h : op = .logicalAnd ∨ op = .logicalOr ∨ op = .logicalXor) (a b : Byte) (s : SR) :
    (op.run a b s).2.c = s.c := by
  rcases h with rfl | rfl | rfl <;> rfl

/-- The shifts and rotates have one operand (R211). -/
theorem AluOp.run_ignores_b {op : AluOp} (h : op = .shiftRight ∨ op = .shiftLeft ∨ op = .rotateLeft ∨ op = .rotateRight)
    (a b b' : Byte) (s : SR) : op.run a b s = op.run a b' s := by
  rcases h with rfl | rfl | rfl | rfl <;> rfl

/-- Add and subtract read C and D, the rotates C, and the others no flag. -/
theorem AluOp.run_result_of_c_d (op : AluOp) (a b : Byte) {s u : SR} (hc : u.c = s.c) (hd : u.d = s.d) :
    (op.run a b u).1 = (op.run a b s).1 := by
  cases op with
  | add => simp only [AluOp.run, aluAdd, hc, hd]
  | subtract => simp only [AluOp.run, aluSubtract, hc, hd]
  | rotateLeft => simp only [AluOp.run, aluRotateLeft, hc]
  | rotateRight => simp only [AluOp.run, aluRotateRight, hc]
  | logicalAnd | logicalOr | logicalXor | shiftRight | shiftLeft => rfl

/-- Settles O51. -/
theorem aluLeavesTheOtherFlags : Obligations.AluLeavesTheOtherFlags := by
  intro op a b b' s u
  obtain ⟨hd, hi, hb⟩ := op.run_keeps_context a b s
  exact ⟨hd, hi, hb, fun hadd hsub => AluOp.run_keeps_v hadd hsub a b s, fun h => AluOp.run_keeps_c h a b s,
    fun h => AluOp.run_ignores_b h a b b' s, op.run_result_of_c_d a b⟩

/-! ### Construction and reset -/

/-- Settles O39. -/
theorem constructionLeavesTheStatedValues : Obligations.ConstructionLeavesTheStatedValues :=
  fun _ => ⟨rfl, rfl, rfl, rfl, rfl, rfl⟩

/-- A state whose registers are as at construction (R38, R41), with SP without a value where the launch gives it none (R40). -/
structure State.RegistersUnwritten (l : Launch) (s : State) : Prop where
  flags : ∀ f, s.sr.get f = false
  data : ∀ r ∈ [Reg8.a, .x, .y], s.reg r = none
  sp : l.spPowerOn = none → s.sp = none

theorem State.construct_registersUnwritten (l : Launch) : (State.construct l).RegistersUnwritten l where
  flags := by intro f; cases f <;> rfl
  data := by simp [State.reg, State.construct]
  sp := fun h => h

theorem State.afterReset_registersUnwritten (l : Launch) (now : Time) : (State.afterReset l now).RegistersUnwritten l where
  flags := by intro f; cases f <;> rfl
  data := by simp [State.reg, State.afterReset, State.construct]
  sp := fun h => by simp [State.afterReset, h]

/-- Settles O40: the two states have the same unwritten registers, and SP is three lower after reset. -/
theorem registersAtConstructionAndAfterReset : Obligations.RegistersAtConstructionAndAfterReset := by
  intro l now
  refine ⟨fun s hs => ?_, fun v hv => ⟨hv, ?_⟩⟩
  · have blank : s.RegistersUnwritten l := by
      rcases List.mem_pair.mp hs with rfl | rfl
      · exact State.construct_registersUnwritten l
      · exact State.afterReset_registersUnwritten l now
    exact ⟨blank.flags, fun r hr => ⟨blank.data r hr, portMove_readReg_of_none (blank.data r hr)⟩,
      fun hsp => ⟨blank.sp hsp, portMove_readReg_of_none (r := .sp) (blank.sp hsp)⟩⟩
  · have lower : v - 3 = BitVec.ofNat 8 ((v.toNat + 253) % 256) := by bv_omega
    rw [← lower]
    simp [State.afterReset, hv]

/-! ### The packed status byte -/

/-- The bits of the packed byte, N V - B D I Z C from bit 7 down (R28). -/
theorem SR.getLsbD_pack (s : SR) :
    s.pack.getLsbD 7 = s.n ∧ s.pack.getLsbD 6 = s.v ∧ s.pack.getLsbD 5 = false ∧ s.pack.getLsbD 4 = s.b ∧
    s.pack.getLsbD 3 = s.d ∧ s.pack.getLsbD 2 = s.i ∧ s.pack.getLsbD 1 = s.z ∧ s.pack.getLsbD 0 = s.c := by
  obtain ⟨n, v, b, d, i, z, c⟩ := s
  revert n v b d i z c
  decide

theorem SR.unpack_pack (s : SR) : SR.unpack s.pack = s := by
  obtain ⟨hn, hv, -, hb, hd, hi, hz, hc⟩ := s.getLsbD_pack
  simp only [SR.unpack, hn, hv, hb, hd, hi, hz, hc]

/-- Packing what was unpacked clears bit 5, the expansion position, and keeps the others. -/
theorem SR.pack_unpack (v : Byte) : (SR.unpack v).pack = v &&& 0xDF := by
  obtain ⟨h7, h6, h5, h4, h3, h2, h1, h0⟩ := (SR.unpack v).getLsbD_pack
  refine BitVec.eq_of_getLsbD_eq fun i hi => ?_
  rw [BitVec.getLsbD_and]
  interval_cases i
  · exact h0.trans (Bool.and_true _).symm
  · exact h1.trans (Bool.and_true _).symm
  · exact h2.trans (Bool.and_true _).symm
  · exact h3.trans (Bool.and_true _).symm
  · exact h4.trans (Bool.and_true _).symm
  · exact h5.trans (Bool.and_false _).symm
  · exact h6.trans (Bool.and_true _).symm
  · exact h7.trans (Bool.and_true _).symm

/-- Settles O53. -/
theorem packedStatusByteLayout : Obligations.PackedStatusByteLayout :=
  ⟨SR.getLsbD_pack, SR.unpack_pack, SR.pack_unpack⟩

/-! ### The register port -/

/-- Writing one flag stores it and keeps the other six. -/
theorem SR.get_put (s : SR) (f g : Flag) (w : Bool) : (s.put f w).get g = if g = f then w else s.get g := by
  cases f <;> cases g <;> rfl

/-- Settles O54: a request is its operation; a read of an 8-bit register depends on whether it holds a value. -/
theorem portFollowsItsAccessRules : Obligations.PortFollowsItsAccessRules := by
  intro s
  exact ⟨fun _ => portMove_readReg_of_none, fun _ _ => portMove_readReg_of_some, rfl, rfl, rfl, fun _ => rfl,
    fun _ => rfl, fun _ => rfl, fun _ => rfl, fun _ => rfl, fun _ => rfl, fun _ => rfl, fun _ => rfl,
    fun f v => ⟨s.sr.put f v, rfl, fun g => s.sr.get_put f g v⟩⟩

/-! ### The stack pointer -/

/-- The stack page is page 1 (R63). -/
theorem stackAddr_toNat (v : Byte) : (stackAddr v).toNat = 256 + v.toNat := by
  have : (Config.stackPage).toNat = 256 := rfl
  have := v.isLt
  simp only [stackAddr, BitVec.toNat_add, BitVec.toNat_setWidth]
  omega

/-- Settles O58. -/
theorem stackPointerWrapsInItsPage : Obligations.StackPointerWrapsInItsPage := by
  intro s v hsp
  have down : v - 1 = BitVec.ofNat 8 ((v.toNat + 255) % 256) := by bv_omega
  have up : v + 1 = BitVec.ofNat 8 ((v.toNat + 1) % 256) := by bv_omega
  exact ⟨by rw [State.decSP, hsp, ← down]; rfl, by rw [State.incSP, hsp, ← up]; rfl, stackAddr_toNat v⟩

end Sys2Proof.Machine
end

section
/-! PROOFS. The memory collaborator: reads have no side effect, writes follow the masks, the default masks, and who reads and writes
memory. -/

namespace Sys2Proof.Machine

/-! ### Reads and writes of the dispatcher -/

/-- Settles O55. -/
theorem memoryReadHasNoSideEffect : Obligations.MemoryReadHasNoSideEffect :=
  ⟨fun s addr => ⟨s.answer (.byte (s.mem.read addr)), rfl, rfl, rfl⟩, fun _ => rfl⟩

/-- R62 as a statement: some mask has all its bits set in the address. -/
theorem isReadOnly_iff {masks : List Word} {addr : Word} : isReadOnly masks addr = true ↔ ∃ m ∈ masks, addr &&& m = m := by
  simp [isReadOnly]

theorem isReadOnly_eq_false_iff {masks : List Word} {addr : Word} :
    isReadOnly masks addr = false ↔ ∀ m ∈ masks, addr &&& m ≠ m := by
  simp [isReadOnly]

/-- Settles O56: the write is decided by the masks; one that is stored follows the memory's law of a read after a write. -/
theorem memoryWriteFollowsTheMasks : Obligations.MemoryWriteFollowsTheMasks := by
  intro s addr v hwf
  refine ⟨fun covered => ?_, fun uncovered => ⟨s.mem.set addr v, ?_, s.mem.set_wf addr v hwf, fun b => ?_⟩⟩
  · rw [memWriteMove, State.memWrite_of_readOnly (isReadOnly_iff.mpr covered)]
    rfl
  · rw [memWriteMove, State.memWrite_of_writable (isReadOnly_eq_false_iff.mpr uncovered)]
    rfl
  · exact (s.mem.read_set addr b v hwf).trans (if_congr eq_comm rfl rfl)

/-! ### The default masks -/

theorem defaultVectors_eq : Config.defaultParams.vectors = [0xFFFA, 0xFFFC, 0xFFFE] := rfl

/-- The vectors of this hardware and the bytes after them are the six highest addresses (R64). -/
theorem mem_defaultVectors_iff (addr : Word) :
    (∃ v ∈ Config.defaultParams.vectors, addr = v ∨ addr = v + 1) ↔ 0xFFFA ≤ addr.toNat := by
  simp only [defaultVectors_eq, List.mem_cons, List.not_mem_nil, or_false, exists_eq_or_imp, exists_eq_left]
  bv_omega

/-- A mask is not above an address that it covers. -/
theorem mask_toNat_le {m addr : Word} (covers : addr &&& m = m) : m.toNat ≤ addr.toNat :=
  calc m.toNat = addr.toNat &&& m.toNat := by rw [← BitVec.toNat_and, covers]
    _ ≤ addr.toNat := Nat.and_le_left

/-- The default masks cover the six highest addresses (R65): they lie there themselves, and the bytes of the vectors have the
bits of one of them. -/
theorem isReadOnly_defaultRoMasks_iff (addr : Word) :
    isReadOnly Config.defaultRoMasks addr = true ↔ 0xFFFA ≤ addr.toNat := by
  constructor
  · intro covered
    have lowest : ∀ m ∈ Config.defaultRoMasks, 0xFFFA ≤ m.toNat := by simp [Config.defaultRoMasks]
    obtain ⟨m, hm, covers⟩ := isReadOnly_iff.mp covered
    exact (lowest m hm).trans (mask_toNat_le covers)
  · intro high
    have vectors : ∀ v ∈ Config.defaultParams.vectors,
        isReadOnly Config.defaultRoMasks v = true ∧ isReadOnly Config.defaultRoMasks (v + 1) = true := by
      simp [defaultVectors_eq, isReadOnly, Config.defaultRoMasks]
    obtain ⟨v, hv, rfl | rfl⟩ := (mem_defaultVectors_iff addr).mpr high
    · exact (vectors _ hv).1
    · exact (vectors _ hv).2

/-- Settles O57: both sets are the six highest addresses. -/
theorem defaultMasksCoverExactlyTheVectors : Obligations.DefaultMasksCoverExactlyTheVectors :=
  ⟨rfl, fun addr => ⟨isReadOnly_defaultRoMasks_iff addr,
    (isReadOnly_defaultRoMasks_iff addr).trans (mem_defaultVectors_iff addr).symm⟩⟩

/-! ### What a step does with memory -/

section
variable (s : State)

@[simp] theorem State.iteration_mem (op : Byte) : (s.iteration op).mem = s.mem := by simp [State.iteration]
@[simp] theorem State.iteration_roMasks (op : Byte) : (s.iteration op).roMasks = s.roMasks := by simp [State.iteration]
@[simp] theorem State.iteration_params (op : Byte) : (s.iteration op).params = s.params := by simp [State.iteration]
@[simp] theorem State.iteration_env_bus (op : Byte) : (s.iteration op).env.bus = some { addr := s.pc, data := op } := by
  simp [State.iteration]

@[simp] theorem State.exitLoop_mem : s.exitLoop.mem = s.mem := by simp [State.exitLoop]
@[simp] theorem State.exitLoop_roMasks : s.exitLoop.roMasks = s.roMasks := by simp [State.exitLoop]
@[simp] theorem State.exitLoop_params : s.exitLoop.params = s.params := by simp [State.exitLoop]
@[simp] theorem State.exitLoop_env_bus : s.exitLoop.env.bus = s.env.bus := by simp [State.exitLoop]

@[simp] theorem State.resetRead_mem (k : ResetRead) : (s.resetRead k).mem = s.mem := by
  obtain ⟨_, _, _, _, _, _, h⟩ := s.resetRead_eq k
  rw [h]
@[simp] theorem State.resetRead_roMasks (k : ResetRead) : (s.resetRead k).roMasks = s.roMasks := by
  obtain ⟨_, _, _, _, _, _, h⟩ := s.resetRead_eq k
  rw [h]
@[simp] theorem State.resetRead_params (k : ResetRead) : (s.resetRead k).params = s.params := by
  obtain ⟨_, _, _, _, _, _, h⟩ := s.resetRead_eq k
  rw [h]

/-- A stack-page read makes one read, of the byte that memory holds (R256). -/
theorem State.stackRead_env_bus (k : ResetRead) :
    ∃ addr, (s.stackRead k).env.bus = some { addr := addr, data := s.mem.read addr } := by
  unfold State.stackRead
  split
  · next v hsp => exact ⟨stackAddr v, rfl⟩
  · exact ⟨stackAddr (Config.freeByte s.env.draws), rfl⟩

/-- Each of the seven reset reads makes one read, of the byte that memory holds (R255). -/
theorem State.resetRead_env_bus (k : ResetRead) :
    ∃ addr, (s.resetRead k).env.bus = some { addr := addr, data := s.mem.read addr } := by
  cases k with
  | stack1 | stack2 | stack3 => exact s.stackRead_env_bus _
  | fetch1 | fetch2 | vectorLow | vectorHigh lo => exact ⟨_, rfl⟩

end

/-- No move writes the masks or the parameters of R7. -/
theorem StepEffect.keeps_launchParameters {s t : State} (h : StepEffect s t) :
    t.roMasks = s.roMasks ∧ t.params = s.params := by
  cases h <;> simp

/-- The writer of memory: the dispatcher (R70). -/
theorem StepEffect.mem_cases {s t : State} (h : StepEffect s t) :
    t.mem = s.mem ∨ ∃ addr v, s.nextEvent = .memWrite addr v := by
  cases h with
  | memWrite addr v move => exact .inr ⟨addr, v, move⟩
  | _ => exact .inl (by simp)

/-- The reads of a step: none, and no cycle is counted; one of a granted reset read; or the one at PC of a granted iteration (R74). -/
theorem StepEffect.bus_cases {s t : State} (h : StepEffect s t) :
    (t.env.bus = none ∧ t.cycles = s.cycles) ∨
    (∃ now k addr, s.nextEvent = .turn true now ∧ s.phase = .resetting k ∧ t.mem = s.mem ∧ t.cycles = s.cycles ∧
      t.env.bus = some { addr := addr, data := s.mem.read addr }) ∨
    (∃ now, s.nextEvent = .turn true now ∧ s.phase = .running ∧ t.mem = s.mem ∧
      t.env.bus = some { addr := s.pc, data := s.mem.read s.pc }) := by
  cases h with
  | resetRead now k move phase =>
    obtain ⟨addr, bus⟩ := (s.takeEvent.observe now).resetRead_env_bus k
    exact .inr (.inl ⟨now, k, addr, move, phase, by simp, by simp, bus⟩)
  | iteration now move phase inside => exact .inr (.inr ⟨now, move, phase, by simp, by simp⟩)
  | _ => exact .inl (by simp)

/-- Settles O30, from the writers of memory and the reads of a step. -/
theorem theCoreOnlyReadsMemory : Obligations.TheCoreOnlyReadsMemory := by
  intro s t hstep
  have effect := stepEffect_of_step hstep
  obtain ⟨masks, params⟩ := effect.keeps_launchParameters
  refine ⟨masks, params, effect.mem_cases, ?_⟩
  rcases effect.bus_cases with ⟨bus, cycles⟩ | ⟨now, k, addr, move, phase, mem, cycles, bus⟩ | ⟨now, move, phase, mem, bus⟩
  · exact ⟨by simp [bus], fun counted => absurd cycles counted⟩
  · refine ⟨fun read hread => ?_, fun counted => absurd cycles counted⟩
    obtain rfl := Option.some.inj (bus.symm.trans hread)
    exact ⟨rfl, mem, ⟨now, move⟩, .inl ⟨k, phase⟩, by simp [phase]⟩
  · refine ⟨fun read hread => ?_, fun _ => ⟨phase, bus⟩⟩
    obtain rfl := Option.some.inj (bus.symm.trans hread)
    exact ⟨rfl, mem, ⟨now, move⟩, .inr phase, fun _ => rfl⟩

end Sys2Proof.Machine
end

section
/-! PROOFS. The encoding around the opcode map: the output codes and the decoder's signals, the instruction lengths, and the operand
of each addressing mode. -/

namespace Sys2Proof

/-! ### The output codes -/

/-- The list of R94. -/
def AddrMode.inOrder : List AddrMode :=
  [.accumulator, .absolute, .absoluteX, .absoluteY, .implicit, .immediate, .indirect, .indexedIndirect, .indirectIndexed,
    .relative, .zeroPage, .zeroPageX, .zeroPageY]

/-- The list of R95. -/
def Mnemonic.inOrder : List Mnemonic :=
  [.adc, .and, .asl, .bcc, .bcs, .beq, .bit, .bmi, .bne, .bpl, .brk, .bvc, .bvs, .clc, .cld, .cli, .clv, .cmp, .cpx, .cpy,
    .dec, .dex, .dey, .eor, .inc, .inx, .iny, .jmp, .jsr, .lda, .ldx, .ldy, .lsr, .nop, .ora, .pha, .php, .pla, .plp, .rol,
    .ror, .rti, .rts, .sbc, .sec, .sed, .sei, .sta, .stx, .sty, .tax, .tay, .tsx, .txa, .txs, .tya]

theorem AddrMode.inOrder_getElem?_code (m : AddrMode) : inOrder[m.code.toNat]? = some m := by cases m <;> rfl

theorem Mnemonic.inOrder_getElem?_code (k : Mnemonic) : inOrder[k.code.toNat]? = some k := by cases k <;> rfl

/-- A code that is the position in a list stays below the list's length and tells the entries apart. -/
theorem code_lt_and_injective_of_position {α : Type} {n : Nat} {code : α → BitVec n} {order : List α}
    (position : ∀ x, order[(code x).toNat]? = some x) :
    (∀ x, (code x).toNat < order.length) ∧ ∀ x y, code x = code y → x = y := by
  constructor
  · intro x
    exact (List.getElem?_eq_some_iff.mp (position x)).1
  · intro x y same
    exact Option.some.inj (by rw [← position x, ← position y, same])

/-! ### The decoder's signals (R120) -/

theorem decoderSignals_of_decodeByte_eq_some {op : Byte} {k : Mnemonic} {m : AddrMode} (h : decodeByte op = some (k, m)) :
    decValid op = true ∧ decInstr op = k.code ∧ decMode op = m.code := by
  simp [decValid, decInstr, decMode, decodeInstruction, decodeAddressing, h]

theorem decoderSignals_of_decodeByte_eq_none {op : Byte} (h : decodeByte op = none) :
    decValid op = false ∧ decInstr op = 0 ∧ decMode op = 0 := by
  simp [decValid, decInstr, decMode, decodeInstruction, decodeAddressing, h]

/-- Settles O6: each code is a position in its list, and so bounded and injective. -/
theorem decoderSignalsCarryTheCodes : Obligations.DecoderSignalsCarryTheCodes := by
  obtain ⟨mode_lt, mode_injective⟩ := code_lt_and_injective_of_position AddrMode.inOrder_getElem?_code
  obtain ⟨instr_lt, instr_injective⟩ := code_lt_and_injective_of_position Mnemonic.inOrder_getElem?_code
  exact ⟨rfl, rfl, mode_lt, mode_injective, instr_lt, instr_injective,
    fun _ _ _ => decoderSignals_of_decodeByte_eq_some, fun _ => decoderSignals_of_decodeByte_eq_none⟩

/-- Settles O8, by the number of operand bytes of each listed mode. -/
theorem instructionLengthsByMode : Obligations.InstructionLengthsByMode :=
  ⟨by decide, by decide, by decide⟩

/-! ### Addresses made of bytes -/

theorem joinBytes_toNat (hi lo : Byte) : (joinBytes hi lo).toNat = 256 * hi.toNat + lo.toNat := by
  rw [joinBytes, BitVec.toNat_append, Nat.shiftLeft_eq, Nat.mul_comm]
  exact (Nat.two_pow_add_eq_or_of_lt lo.isLt hi.toNat).symm

theorem toNat_add_index (base : Word) (index : Byte) :
    (base + index.setWidth 16).toNat = (base.toNat + index.toNat) % 65536 := by bv_omega

/-- A branch displacement is signed (R93). -/
theorem toNat_add_displacement (next : Word) (d : Byte) :
    ((next + d.signExtend 16).toNat : Int) = (next.toNat + d.toInt) % 65536 := by
  have extended : (d.signExtend 16).toInt = d.toInt := BitVec.toInt_signExtend_of_le (by decide)
  rw [← extended, BitVec.toInt_eq_toNat_cond, BitVec.toNat_add]
  omega

end Sys2Proof

namespace Sys2Proof.Machine

/-! ### The operand of each addressing mode (R93) -/

theorem zeroPageAddr_toNat (b : Byte) : (zeroPageAddr b).toNat = b.toNat := by simp [zeroPageAddr, joinBytes_toNat]

/-- An indexed zero-page address wraps in the page. -/
theorem zeroPageAddr_add_toNat (b index : Byte) : (zeroPageAddr (b + index)).toNat = (b.toNat + index.toNat) % 256 := by
  rw [zeroPageAddr_toNat, BitVec.toNat_add]

/-- An indexed absolute address wraps in the address space. -/
theorem joinBytes_add_index_toNat (hi lo index : Byte) :
    (joinBytes hi lo + index.setWidth 16).toNat = (256 * hi.toNat + lo.toNat + index.toNat) % 65536 := by
  rw [toNat_add_index, joinBytes_toNat]

section
variable (b1 b2 : Byte) (next : Word) {s : State}

theorem formOperand_of_x {x : Byte} (hx : s.x = some x) :
    formOperand .zeroPageX b1 b2 next s = some (.address (zeroPageAddr (b1 + x))) ∧
    formOperand .absoluteX b1 b2 next s = some (.address (joinBytes b2 b1 + x.setWidth 16)) ∧
    formOperand .indexedIndirect b1 b2 next s = some (.address (zeroPagePointer s.mem (b1 + x))) := by
  simp [formOperand, hx]

theorem formOperand_of_y {y : Byte} (hy : s.y = some y) :
    formOperand .zeroPageY b1 b2 next s = some (.address (zeroPageAddr (b1 + y))) ∧
    formOperand .absoluteY b1 b2 next s = some (.address (joinBytes b2 b1 + y.setWidth 16)) ∧
    formOperand .indirectIndexed b1 b2 next s = some (.address (zeroPagePointer s.mem b1 + y.setWidth 16)) := by
  simp [formOperand, hy]

theorem formOperand_of_x_none (hx : s.x = none) :
    formOperand .zeroPageX b1 b2 next s = none ∧ formOperand .absoluteX b1 b2 next s = none ∧
    formOperand .indexedIndirect b1 b2 next s = none := by
  simp [formOperand, hx]

theorem formOperand_of_y_none (hy : s.y = none) :
    formOperand .zeroPageY b1 b2 next s = none ∧ formOperand .absoluteY b1 b2 next s = none ∧
    formOperand .indirectIndexed b1 b2 next s = none := by
  simp [formOperand, hy]

end

/-- Settles O59: the modes that read no register by their definition, the others by the value of X or Y; the addresses by
the rules on bytes above. -/
theorem operandFormsByMode : Obligations.OperandFormsByMode := by
  intro s b1 b2 next
  refine ⟨rfl, rfl, rfl, ⟨_, rfl, zeroPageAddr_toNat b1⟩, ⟨_, rfl, joinBytes_toNat b2 b1⟩, fun x hx => ?_, fun y hy => ?_,
    rfl, ⟨_, rfl, toNat_add_displacement next b1⟩, formOperand_of_x_none b1 b2 next, formOperand_of_y_none b1 b2 next⟩
  · obtain ⟨zeroPage, absolute, pointer⟩ := formOperand_of_x b1 b2 next hx
    exact ⟨⟨_, zeroPage, zeroPageAddr_add_toNat b1 x⟩, ⟨_, absolute, joinBytes_add_index_toNat b2 b1 x⟩, pointer⟩
  · obtain ⟨zeroPage, absolute, pointer⟩ := formOperand_of_y b1 b2 next hy
    exact ⟨⟨_, zeroPage, zeroPageAddr_add_toNat b1 y⟩, ⟨_, absolute, joinBytes_add_index_toNat b2 b1 y⟩, pointer⟩

end Sys2Proof.Machine
end

section
/-! PROOFS. The decoder over the 256 opcode bytes: which byte is which row of the opcode table, the two halves, and the rule of
each mnemonic. -/

namespace Sys2Proof

/-! ### The opcode map and the operand lists -/

/-- The cells of the opcode map are the entries of the operand lists. -/
theorem decodeByte_eq_some_iff {op : Byte} {k : Mnemonic} {m : AddrMode} :
    decodeByte op = some (k, m) ↔ (m, op) ∈ k.forms :=
  ⟨fun h => mem_forms_of_opcodeOf (opcodeOf_decodeByte op (k, m) h), decodeByte_of_mem_forms k m op⟩

theorem decodeAddressing_eq_some_iff {op : Byte} {m : AddrMode} :
    decodeAddressing op = some m ↔ ∃ k : Mnemonic, (m, op) ∈ k.forms := by
  simp [decodeAddressing, decodeByte_eq_some_iff]

/-- The Indirect mode is that of JMP 0x6C alone (R157). -/
theorem indirect_mem_forms_iff {op : Byte} {k : Mnemonic} : (AddrMode.indirect, op) ∈ k.forms ↔ k = .jmp ∧ op = 0x6C := by
  cases k with
  | jmp => simp [Mnemonic.forms]
  | _ => simp [Mnemonic.forms]

theorem isSome_decodeByte_of_legal {op : Byte} (h : isIllegalOpcode op = false) : (decodeByte op).isSome = true := by
  rw [Option.isSome_iff_ne_none, ne_eq, decodeByte_eq_none_iff, h]
  exact Bool.false_ne_true

/-! ### The two halves of the decoder -/

/-- Both halves are projections of one decoder (R121, R122). -/
theorem decodeHalves_isSome (op : Byte) :
    (decodeAddressing op).isSome = (decodeByte op).isSome ∧ (decodeInstruction op).isSome = (decodeByte op).isSome :=
  ⟨Option.isSome_map, Option.isSome_map⟩

/-- R98 selects the mode of the opcode map. -/
theorem fieldAddressing_eq_decodeAddressing : ∀ op : Byte, fieldAddressing op = decodeAddressing op := by decide +kernel

/-- R99 selects the mnemonic of the opcode map. -/
theorem fieldInstruction_eq_decodeInstruction : ∀ op : Byte, fieldInstruction op = decodeInstruction op := by decide +kernel

/-- Settles O3: in both forms, each half gives an answer where the opcode map does. -/
theorem legalityHalvesAgree : Obligations.LegalityHalvesAgree := by
  intro op
  obtain ⟨addressing, instruction⟩ := decodeHalves_isSome op
  have agree : (decodeAddressing op).isSome = (decodeInstruction op).isSome := addressing.trans instruction.symm
  rw [fieldAddressing_eq_decodeAddressing, fieldInstruction_eq_decodeInstruction]
  exact ⟨agree, agree⟩

/-- R100's count: the 64 values with c = 3, and 41 others. -/
theorem illegalOpcodes_length : ((List.range 256).filter fun n => isIllegalOpcode (BitVec.ofNat 8 n)).length = 105 := by
  decide +kernel

/-- Settles O4, from the illegal cells of the opcode map. -/
theorem illegalOpcodesDecodeToNone : Obligations.IllegalOpcodesDecodeToNone := by
  refine ⟨fun op illegal => ?_, fun op => isSome_decodeByte_of_legal, illegalOpcodes_length, rfl⟩
  have undecoded : decodeByte op = none := (decodeByte_eq_none_iff op).mpr illegal
  simp [decodeAddressing, decodeInstruction, undecoded]

/-! ### A byte and its fields (R90) -/

/-- The opcode byte with the fields `a`, `b` and `c`. -/
def opcodeOfFields (a b : BitVec 3) (c : BitVec 2) : Byte := a ++ b ++ c

theorem opcodeOfFields_fields : ∀ op : Byte, opcodeOfFields (fieldA op) (fieldB op) (fieldC op) = op := by decide +kernel

/-- The bytes of the column (b, c) of the opcode map: one for each `a`. -/
theorem exists_eq_opcodeOfFields {op : Byte} {b : BitVec 3} {c : BitVec 2} (hc : fieldC op = c) (hb : fieldB op = b) :
    ∃ a, op = opcodeOfFields a b c :=
  ⟨fieldA op, by rw [← hc, ← hb, opcodeOfFields_fields]⟩

/-- A list holds the bytes with `P` of the column (b, c): its entries are such bytes, and it misses none of the column. -/
theorem mem_iff_of_column {P : Byte → Prop} {l : List Byte} {b : BitVec 3} {c : BitVec 2}
    (entries : ∀ op ∈ l, fieldC op = c ∧ fieldB op = b ∧ P op)
    (column : ∀ a, P (opcodeOfFields a b c) → opcodeOfFields a b c ∈ l) (op : Byte) :
    op ∈ l ↔ fieldC op = c ∧ fieldB op = b ∧ P op := by
  refine ⟨entries op, fun ⟨hc, hb, h⟩ => ?_⟩
  obtain ⟨a, rfl⟩ := exists_eq_opcodeOfFields hc hb
  exact column a h

/-- Of a column (b, c), one byte alone has `P`. -/
theorem eq_iff_of_column {P : Byte → Prop} {only : Byte} {b : BitVec 3} {c : BitVec 2}
    (entry : fieldC only = c ∧ fieldB only = b ∧ P only)
    (column : ∀ a, P (opcodeOfFields a b c) → opcodeOfFields a b c = only) (op : Byte) :
    op = only ↔ fieldC op = c ∧ fieldB op = b ∧ P op := by
  simpa using mem_iff_of_column (l := [only]) (by simpa using entry) (by simpa using column) op

end Sys2Proof

namespace Sys2Proof.Machine

/-! ### The rule of each mnemonic -/

/-- Every mnemonic follows its rule, with the code, operand list, ALU primitive and port use that the model's tables give it. -/
theorem mnemonicRule (k : Mnemonic) :
    MnemonicRule k (Instr.ofForm k) k.code k.forms (aluPrimitive k) (srPortUse k) := by
  refine ⟨rfl, rfl, rfl, fun op m => decodeByte_eq_some_iff, fun m op form => ?_⟩
  have decoded : decodeByte op = some (k, m) := decodeByte_eq_some_iff.mpr form
  exact ⟨decodeInstr_of_decodeByte decoded, decoderSignals_of_decodeByte_eq_some decoded⟩

/-- Settles O9. -/
theorem arithmeticAndLogicInstructionsFollowTheirRules :
    Obligations.ArithmeticAndLogicInstructionsFollowTheirRules :=
  ⟨mnemonicRule .adc, mnemonicRule .sbc, mnemonicRule .and, mnemonicRule .ora, mnemonicRule .eor, mnemonicRule .bit,
    rfl, rfl⟩

/-- Settles O10. -/
theorem shiftRotateIncrementInstructionsFollowTheirRules :
    Obligations.ShiftRotateIncrementInstructionsFollowTheirRules :=
  ⟨mnemonicRule .asl, mnemonicRule .lsr, mnemonicRule .rol, mnemonicRule .ror, mnemonicRule .inc, mnemonicRule .dec,
    mnemonicRule .inx, mnemonicRule .iny, mnemonicRule .dex, mnemonicRule .dey, rfl, rfl, rfl, rfl, rfl⟩

/-- Settles O11; the corner cases by the columns of the opcode map that they speak of. -/
theorem compareLoadStoreInstructionsFollowTheirRules :
    Obligations.CompareLoadStoreInstructionsFollowTheirRules :=
  ⟨mnemonicRule .cmp, mnemonicRule .cpx, mnemonicRule .cpy, mnemonicRule .lda, mnemonicRule .ldx, mnemonicRule .ldy,
    mnemonicRule .sta, mnemonicRule .stx, mnemonicRule .sty, mem_iff_of_column (by decide) (by decide), rfl, rfl, rfl,
    eq_iff_of_column (by decide) (by decide), eq_iff_of_column (by decide) (by decide), rfl, rfl, rfl, rfl, rfl⟩

/-- Settles O12; TXS and TSX are the legal opcodes of their column. -/
theorem transferAndStackInstructionsFollowTheirRules :
    Obligations.TransferAndStackInstructionsFollowTheirRules :=
  ⟨mnemonicRule .tax, mnemonicRule .tay, mnemonicRule .tsx, mnemonicRule .txa, mnemonicRule .txs, mnemonicRule .tya,
    mnemonicRule .pha, mnemonicRule .php, mnemonicRule .pla, mnemonicRule .plp, rfl, rfl, rfl, rfl, rfl, rfl,
    mem_iff_of_column (by decide) (by decide)⟩

/-- Settles O13; the Indirect opcode by the operand lists, the Implicit ones by their column of the opcode map. -/
theorem branchAndJumpInstructionsFollowTheirRules :
    Obligations.BranchAndJumpInstructionsFollowTheirRules := by
  refine ⟨mnemonicRule .bcc, mnemonicRule .bcs, mnemonicRule .beq, mnemonicRule .bmi, mnemonicRule .bne, mnemonicRule .bpl,
    mnemonicRule .bvc, mnemonicRule .bvs, mnemonicRule .jmp, mnemonicRule .jsr, fun op => ?indirect, rfl, rfl, rfl, rfl, rfl,
    rfl, rfl, rfl, rfl, fun op hc hb => ?implicit⟩
  case indirect => simp [decodeAddressing_eq_some_iff, indirect_mem_forms_iff]
  case implicit =>
    obtain ⟨a, rfl⟩ := exists_eq_opcodeOfFields hc hb
    revert a
    decide

/-- Settles O14. -/
theorem returnBreakAndFlagInstructionsFollowTheirRules :
    Obligations.ReturnBreakAndFlagInstructionsFollowTheirRules :=
  ⟨mnemonicRule .rts, mnemonicRule .rti, mnemonicRule .brk, mnemonicRule .nop, mnemonicRule .clc, mnemonicRule .cld,
    mnemonicRule .cli, mnemonicRule .clv, mnemonicRule .sec, mnemonicRule .sed, mnemonicRule .sei, rfl, rfl⟩

end Sys2Proof.Machine
end

section
/-! PROOFS. The ALU: what its move answers for each code, its flag rules field by field, and the results and flags of its
operations in arithmetic on the operands' numbers. -/

namespace Sys2Proof.Machine

/-! ### The ALU's move -/

/-- The codes 9 to 15 name no operation (R210). -/
theorem aluOpOfCode_eq_none_of_nine_le : ∀ {code : BitVec 4}, 9 ≤ code.toNat → aluOpOfCode code = none := by decide

/-- A code that names an operation answers that operation's result and flags (R200). -/
theorem aluAnswers_of_run {code : BitVec 4} {op : AluOp} {a b r : Byte} {s : State} {sr : SR}
    (names : aluOpOfCode code = some op) (run : op.run a b s.sr = (r, sr)) : aluAnswers code a b s r sr := by
  simp only [aluAnswers, aluMove, names, run, State.answer]

/-- Settles O52: a code names an operation, which answers, or it is one of 9 to 15. -/
theorem aluCodesAnswerOrAreRefused : Obligations.AluCodesAnswerOrAreRefused := by
  intro code a b s
  refine ⟨fun named => ?_, fun reserved => ?_⟩
  · cases names : aluOpOfCode code with
    | none =>
      have reserved := nine_le_of_aluOpOfCode_eq_none names
      omega
    | some op => exact ⟨_, _, aluAnswers_of_run names rfl⟩
  · rw [aluMove, aluOpOfCode_eq_none_of_nine_le reserved]

/-! ### The flag rules (R213) -/

section
variable (s : SR) (a r : Byte) (carry : Bool)

theorem SR.withNZ_eq : s.withNZ r = { s with n := r.msb, z := decide (r = 0) } := by
  rw [SR.withNZ, BitVec.msb_eq_getLsbD_last, beq_eq_decide]

theorem SR.afterShift_eq : s.afterShift r carry = { s with n := r.msb, z := decide (r = 0), c := carry } := by
  rw [SR.afterShift, SR.withNZ_eq]

theorem SR.afterSum_eq :
    s.afterSum a r carry = { s with n := r.msb, v := a.msb ^^ r.msb, z := decide (r = 0), c := carry } := by
  rw [SR.afterSum, SR.withNZ_eq, BitVec.msb_eq_getLsbD_last a, BitVec.msb_eq_getLsbD_last r]

@[simp] theorem SR.afterSum_c : (s.afterSum a r carry).c = carry := rfl

/-- The flags after add and subtract but C (R201, R202): V, N and Z from the operand and the result; D, I and B kept. -/
theorem SR.afterSum_flags :
    (s.afterSum a r carry).v = (a.msb ^^ r.msb) ∧ (s.afterSum a r carry).n = r.msb ∧
    ((s.afterSum a r carry).z = true ↔ r = 0) ∧ (s.afterSum a r carry).d = s.d ∧ (s.afterSum a r carry).i = s.i ∧
    (s.afterSum a r carry).b = s.b := by
  rw [SR.afterSum_eq]
  exact ⟨rfl, rfl, decide_eq_true_iff, rfl, rfl, rfl⟩

end

/-! ### Add and subtract -/

theorem bcdByte_toNat {n : Nat} (h : n < 100) : (bcdByte n).toNat = 16 * (n / 10) + n % 10 := by
  rw [bcdByte, BitVec.toNat_ofNat]
  omega

section
variable (a b : Byte) {s : SR}

theorem aluAdd_of_binary (h : s.d = false) :
    (aluAdd a b s).1.toNat = (a.toNat + b.toNat + s.c.toNat) % 256 ∧
    ((aluAdd a b s).2.c = true ↔ 255 < a.toNat + b.toNat + s.c.toNat) := by
  simp [aluAdd, h]

theorem aluAdd_of_decimal (h : s.d = true) :
    (aluAdd a b s).1.toNat = 16 * ((decimalValue a + decimalValue b + s.c.toNat) % 100 / 10) +
      (decimalValue a + decimalValue b + s.c.toNat) % 100 % 10 ∧
    ((aluAdd a b s).2.c = true ↔ 99 < decimalValue a + decimalValue b + s.c.toNat) := by
  have below : (decimalValue a + decimalValue b + s.c.toNat) % 100 < 100 := Nat.mod_lt _ (by decide)
  simp [aluAdd, h, bcdByte_toNat below]

theorem aluSubtract_of_binary (h : s.d = false) :
    ((aluSubtract a b s).1.toNat : Int) = (a.toNat - b.toNat - (1 - s.c.toNat) : Int) % 256 ∧
    ((aluSubtract a b s).2.c = true ↔ (0 : Int) ≤ a.toNat - b.toNat - (1 - s.c.toNat)) := by
  have nonneg : 0 ≤ (a.toNat - b.toNat - (1 - s.c.toNat) : Int) % 256 := Int.emod_nonneg _ (by decide)
  simp [aluSubtract, h, BitVec.toNat_ofInt, nonneg]

theorem aluSubtract_of_decimal (h : s.d = true) :
    ((aluSubtract a b s).1.toNat : Int) =
      16 * ((decimalValue a - decimalValue b - (1 - s.c.toNat) : Int) % 100 / 10) +
        (decimalValue a - decimalValue b - (1 - s.c.toNat) : Int) % 100 % 10 ∧
    ((aluSubtract a b s).2.c = true ↔ (0 : Int) ≤ decimalValue a - decimalValue b - (1 - s.c.toNat)) := by
  have below : ((decimalValue a - decimalValue b - (1 - s.c.toNat) : Int) % 100).toNat < 100 := by omega
  refine ⟨?_, by simp [aluSubtract, h]⟩
  simp only [aluSubtract, h, if_true, bcdByte_toNat below]
  omega

end

/-- Settles O44. -/
theorem addFollowsItsRule : Obligations.AddFollowsItsRule := by
  intro a b s
  exact ⟨_, _, aluAnswers_of_run (op := .add) rfl rfl, aluAdd_of_binary a b, aluAdd_of_decimal a b,
    SR.afterSum_flags ..⟩

/-- Settles O45. -/
theorem subtractFollowsItsRule : Obligations.SubtractFollowsItsRule := by
  intro a b s
  exact ⟨_, _, aluAnswers_of_run (op := .subtract) rfl rfl, aluSubtract_of_binary a b, aluSubtract_of_decimal a b,
    SR.afterSum_flags ..⟩

/-- Settles O49: with no carry in and no borrow in, the difference is `a` modulo 256. -/
theorem subtractUndoesAdd : Obligations.SubtractUndoesAdd := by
  intro a b s u hsd hsc hud huc
  obtain ⟨sum, -⟩ := aluAdd_of_binary a b hsd
  obtain ⟨difference, -⟩ := aluSubtract_of_binary (aluAdd a b s).1 b hud
  rw [hsc, Bool.toNat_false] at sum
  rw [huc, Bool.toNat_true] at difference
  refine BitVec.eq_of_toNat_eq ?_
  have := a.isLt
  omega

/-- Settles O50: each result is the packed form of a number below 100. -/
theorem decimalResultsAreDigits : Obligations.DecimalResultsAreDigits := by
  intro a b s hd
  obtain ⟨sum, -⟩ := aluAdd_of_decimal a b hd
  obtain ⟨difference, -⟩ := aluSubtract_of_decimal a b hd
  omega

/-! ### The logical operations -/

/-- Settles O47. -/
theorem logicalOperationsFollowTheirRules : Obligations.LogicalOperationsFollowTheirRules := by
  intro a b s
  exact ⟨aluAnswers_of_run (op := .logicalAnd) rfl (congrArg (Prod.mk _) (s.sr.withNZ_eq _)),
    aluAnswers_of_run (op := .logicalOr) rfl (congrArg (Prod.mk _) (s.sr.withNZ_eq _)),
    aluAnswers_of_run (op := .logicalXor) rfl (congrArg (Prod.mk _) (s.sr.withNZ_eq _))⟩

/-! ### The shifts and rotates -/

section
variable (a : Byte) (c : Bool)

/-- The carry-in as a byte, which a rotate moves into bit 0 or bit 7. -/
def carryByte : Byte := if c then 1 else 0

theorem ofNat_toNat_carry : BitVec.ofNat 8 c.toNat = carryByte c := by cases c <;> rfl

theorem ofNat_carry_at_bit7 : BitVec.ofNat 8 (c.toNat * 128) = carryByte c <<< 7 := by cases c <;> rfl

theorem ofNat_double : BitVec.ofNat 8 (a.toNat * 2) = a <<< 1 := by bv_omega

theorem ofNat_half : BitVec.ofNat 8 (a.toNat / 2) = a >>> 1 := by bv_omega

/-- Doubling frees bit 0 for the carry (R208). -/
theorem ofNat_double_add_carry : BitVec.ofNat 8 (a.toNat * 2 + c.toNat) = a <<< 1 ||| carryByte c := by
  have disjoint : a.toNat * 2 + c.toNat = a.toNat * 2 ||| c.toNat := by
    rw [Nat.mul_comm]
    exact Nat.two_pow_add_eq_or_of_lt (i := 1) c.toNat_lt a.toNat
  rw [disjoint, BitVec.ofNat_or, ofNat_double, ofNat_toNat_carry]

/-- Halving frees bit 7 for the carry (R209). -/
theorem ofNat_half_add_carry : BitVec.ofNat 8 (a.toNat / 2 + c.toNat * 128) = a >>> 1 ||| carryByte c <<< 7 := by
  have disjoint : a.toNat / 2 + c.toNat * 128 = a.toNat / 2 ||| c.toNat * 128 := by
    rw [Nat.add_comm, Nat.or_comm, Nat.mul_comm]
    exact Nat.two_pow_add_eq_or_of_lt (i := 7) (Nat.div_lt_of_lt_mul a.isLt) c.toNat
  rw [disjoint, BitVec.ofNat_or, ofNat_half, ofNat_carry_at_bit7]

theorem carryByte_msb : (carryByte c).msb = false := by cases c <;> rfl

theorem carryByte_at_bit7_msb : (carryByte c <<< 7).msb = c := by cases c <;> rfl

theorem shiftedLeft_msb : (a <<< 1).msb = a.getLsbD 6 := BitVec.msb_shiftLeft

theorem shiftedRight_msb : (a >>> 1).msb = false := BitVec.msb_ushiftRight

end

section
variable (a : Byte) (s : SR)

theorem aluShiftRight_eq :
    aluShiftRight a s = (a >>> 1, { s with c := a.getLsbD 0, n := false, z := decide (a >>> 1 = 0) }) := by
  simp only [aluShiftRight, ofNat_half, SR.afterShift_eq, shiftedRight_msb]

theorem aluShiftLeft_eq :
    aluShiftLeft a s = (a <<< 1, { s with c := a.getLsbD 7, n := a.getLsbD 6, z := decide (a <<< 1 = 0) }) := by
  simp only [aluShiftLeft, ofNat_double, SR.afterShift_eq, shiftedLeft_msb]

theorem aluRotateLeft_eq :
    aluRotateLeft a s = (a <<< 1 ||| carryByte s.c,
      { s with c := a.getLsbD 7, n := a.getLsbD 6, z := decide (a <<< 1 ||| carryByte s.c = 0) }) := by
  simp only [aluRotateLeft, ofNat_double_add_carry, SR.afterShift_eq, BitVec.msb_or, shiftedLeft_msb, carryByte_msb,
    Bool.or_false]

theorem aluRotateRight_eq :
    aluRotateRight a s = (a >>> 1 ||| carryByte s.c <<< 7,
      { s with c := a.getLsbD 0, n := s.c, z := decide (a >>> 1 ||| carryByte s.c <<< 7 = 0) }) := by
  simp only [aluRotateRight, ofNat_half_add_carry, SR.afterShift_eq, BitVec.msb_or, shiftedRight_msb,
    carryByte_at_bit7_msb, Bool.false_or]

end

/-- Settles O48. -/
theorem shiftsAndRotatesFollowTheirRules : Obligations.ShiftsAndRotatesFollowTheirRules := by
  intro a b s
  exact ⟨aluAnswers_of_run (op := .shiftRight) rfl (aluShiftRight_eq a s.sr),
    aluAnswers_of_run (op := .shiftLeft) rfl (aluShiftLeft_eq a s.sr),
    aluAnswers_of_run (op := .rotateLeft) rfl (aluRotateLeft_eq a s.sr),
    aluAnswers_of_run (op := .rotateRight) rfl (aluRotateRight_eq a s.sr)⟩

end Sys2Proof.Machine
end

section
/-! PROOFS. The sequencer: what the CPU loop's turn does in each phase, an instruction as one iteration, the frequency estimate,
runs of turns, the host's calls, and the reset sequence. -/

namespace Sys2Proof.Machine

/-! ### The loop's turn -/

/-- What the CPU loop's turn leaves of a state: the move is taken, the clock is read, and the loop acts. -/
def State.takeTurn (s : State) (pulse : Bool) (now : Time) : State := (s.takeEvent.observe now).afterTurn pulse

/-- The turn's time is the later of the clock and its reading (R264). -/
theorem State.observe_env_clock_eq_max (s : State) (now : Time) : (s.observe now).env.clock = max s.env.clock now :=
  (max_def_lt s.env.clock now).symm

section
variable (s : State)

@[simp] theorem State.iteration_inWait (op : Byte) : (s.iteration op).inWait = false := by simp [State.iteration]
@[simp] theorem State.iteration_env_inputs (op : Byte) : (s.iteration op).env.inputs = s.env.inputs := by
  simp [State.iteration]
@[simp] theorem State.iteration_env_clock (op : Byte) : (s.iteration op).env.clock = s.env.clock := by
  simp [State.iteration]
@[simp] theorem State.iteration_env_reply (op : Byte) : (s.iteration op).env.reply = s.env.reply := by
  simp [State.iteration]

@[simp] theorem State.exitLoop_phase : s.exitLoop.phase = .terminated := rfl
@[simp] theorem State.exitLoop_env_inputs : s.exitLoop.env.inputs = s.env.inputs := by simp [State.exitLoop]
@[simp] theorem State.exitLoop_env_clock : s.exitLoop.env.clock = s.env.clock := by simp [State.exitLoop]

@[simp] theorem State.resetRead_inWait (k : ResetRead) : (s.resetRead k).inWait = s.inWait := by
  obtain ⟨_, _, _, _, _, _, h⟩ := s.resetRead_eq k
  rw [h]
@[simp] theorem State.resetRead_env_inputs (k : ResetRead) : (s.resetRead k).env.inputs = s.env.inputs := by
  obtain ⟨_, _, _, _, _, _, h⟩ := s.resetRead_eq k
  rw [h]
@[simp] theorem State.resetRead_env_clock (k : ResetRead) : (s.resetRead k).env.clock = s.env.clock := by
  obtain ⟨_, _, _, _, _, _, h⟩ := s.resetRead_eq k
  rw [h]

theorem State.afterTurn_keeps_inputs_and_clock (pulse : Bool) :
    (s.afterTurn pulse).env.inputs = s.env.inputs ∧ (s.afterTurn pulse).env.clock = s.env.clock := by
  unfold State.afterTurn
  cases s.phase with
  | idle | terminated => exact ⟨rfl, rfl⟩
  | resetting k => cases pulse <;> simp
  | running => cases s.term && !s.inWait <;> cases pulse <;> simp

@[simp] theorem State.takeTurn_env_inputs (pulse : Bool) (now : Time) :
    (s.takeTurn pulse now).env.inputs = s.env.inputs.tail :=
  ((s.takeEvent.observe now).afterTurn_keeps_inputs_and_clock pulse).1

@[simp] theorem State.takeTurn_env_clock (pulse : Bool) (now : Time) :
    (s.takeTurn pulse now).env.clock = max s.env.clock now :=
  ((s.takeEvent.observe now).afterTurn_keeps_inputs_and_clock pulse).2.trans (s.takeEvent.observe_env_clock_eq_max now)

end

section
variable {s : State} {pulse : Bool} {now : Time}

theorem step_of_turn_inputs {rest : List Event} (h : s.env.inputs = .turn pulse now :: rest) :
    step s = .next (s.takeTurn pulse now) :=
  step_of_turn (State.nextEvent_of_inputs h)

/-- Before `start()` and after the end the loop does not act (R254, R267). -/
theorem State.takeTurn_of_resting (h : s.phase = .idle ∨ s.phase = .terminated) :
    s.takeTurn pulse now = s.takeEvent.observe now := by
  rcases h with h | h <;> simp [State.takeTurn, State.afterTurn, h]

theorem State.takeTurn_false_of_resetting {k : ResetRead} (h : s.phase = .resetting k) :
    s.takeTurn false now = s.takeEvent.observe now := by
  simp [State.takeTurn, State.afterTurn, h]

theorem State.takeTurn_true_of_resetting {k : ResetRead} (h : s.phase = .resetting k) :
    s.takeTurn true now = (s.takeEvent.observe now).resetRead k := by
  simp [State.takeTurn, State.afterTurn, h]

/-- The check at the top of an iteration sees the request and exits, whatever a poll would answer (R262). -/
theorem State.takeTurn_of_requested (hp : s.phase = .running) (requested : s.term = true) (top : s.inWait = false) :
    s.takeTurn pulse now = (s.takeEvent.observe now).exitLoop := by
  simp [State.takeTurn, State.afterTurn, hp, requested, top]

/-- The check at the top lets the loop on, or is already past. -/
theorem State.not_exits (inside : s.term = false ∨ s.inWait = true) : (s.term && !s.inWait) = false := by
  rcases inside with h | h <;> simp [h]

theorem State.takeTurn_false_of_running (hp : s.phase = .running) (inside : s.term = false ∨ s.inWait = true) :
    s.takeTurn false now = { s.takeEvent.observe now with inWait := true } := by
  simp [State.takeTurn, State.afterTurn, hp, State.not_exits inside]

theorem State.takeTurn_true_of_running (hp : s.phase = .running) (inside : s.term = false ∨ s.inWait = true) :
    s.takeTurn true now = (s.takeEvent.observe now).iteration (s.mem.read s.pc) := by
  simp [State.takeTurn, State.afterTurn, hp, State.not_exits inside]

end

/-! ### An instruction is one iteration -/

/-- Every term of `Instr` has a byte exactly when it is a row of the opcode table: the family of lemmas, one a constructor. -/
theorem encode_isSome_eq_wellFormed (i : Instr) : (encode i).isSome = i.wellFormed := by
  open Laws.EncodedIffWellFormed in
  exact Instr.rec (motive := Statement) adc and asl bcc bcs beq bit bmi bne bpl brk bvc bvs clc cld cli clv cmp cpx cpy dec dex
    dey eor inc inx iny jmp jsr lda ldx ldy lsr nop ora pha php pla plp rol ror rti rts sbc sec sed sei sta stx sty tax tay
    tsx txa txs tya illegal i

/-- An iteration has the effect that R260, R261 and R264 give it: what the fetch writes, and the measurement of a full window. -/
theorem State.iterationOf_iteration (s : State) (op : Byte) : IterationOf op s (s.iteration op) where
  fetched := s.iteration_fetched op
  decoded := by simp [State.decoded]
  pc := s.iteration_pc op
  cycles := s.iteration_cycles op
  bus := s.iteration_env_bus op
  waitOver := s.iteration_inWait op
  window := by
    intro m hm full
    rw [State.iteration, State.measureWindow_of_full (s := s.fetchByte op) hm full]
    exact ⟨rfl, fun elapsed => State.estimate_freq (s := s.fetchByte op) elapsed⟩
  noWindow := by
    intro not_full
    rw [State.iteration, State.measureWindow_of_not_full (s := s.fetchByte op) not_full]
    exact ⟨rfl, rfl⟩
  registers := by simp
  sequencer := by simp
  memory := by simp
  agents := by simp

/-- Settles O15: a row of the table has a byte, and whatever the instruction its meaning is the iteration that fetches the byte. -/
theorem everyInstructionCompletesAsOneIteration : Obligations.EveryInstructionCompletesAsOneIteration := by
  intro i s hwf
  obtain ⟨op, hop⟩ := Option.isSome_iff_exists.mp ((encode_isSome_eq_wellFormed i).trans hwf)
  exact ⟨op, s.iteration op, hop, (exec_eq_present i s).trans (present_of_encode hop s), s.iterationOf_iteration op⟩

/-! ### One turn of Running -/

/-- Settles O18: the three ways through the top of an iteration. -/
theorem runningTurnFollowsTheIterationRule : Obligations.RunningTurnFollowsTheIterationRule := by
  intro s pulse now rest hp hinputs
  have turn := step_of_turn_inputs hinputs
  refine ⟨fun requested top => ?_, fun inside granted => ?_, fun inside refused => ?_⟩
  · rw [State.takeTurn_of_requested hp requested top] at turn
    exact ⟨_, turn, by simp, rfl⟩
  · subst granted
    rw [State.takeTurn_true_of_running hp inside] at turn
    exact ⟨_, turn, State.iterationOf_iteration _ _, by simp [BitVec.toNat_add]⟩
  · subst refused
    rw [turn, State.takeTurn_false_of_running hp inside]

/-- Settles O19: in either kind of wait, a false poll leaves the CORE and a true one makes the wait's read. -/
theorem pulseWaitFollowsItsRule : Obligations.PulseWaitFollowsItsRule := by
  intro s pulse now rest hinputs waiting
  refine ⟨_, step_of_turn_inputs hinputs, fun refused => ?_, fun granted => ?_⟩
  · subst refused
    rcases waiting with ⟨k, hp⟩ | ⟨hp, inside⟩
    · rw [State.takeTurn_false_of_resetting hp]
      exact ⟨rfl, rfl⟩
    · rw [State.takeTurn_false_of_running hp inside]
      exact ⟨rfl, rfl⟩
  · subst granted
    rcases waiting with ⟨k, hp⟩ | ⟨hp, inside⟩
    · rw [State.takeTurn_true_of_resetting hp]
      obtain ⟨addr, bus⟩ := (s.takeEvent.observe now).resetRead_env_bus k
      exact ⟨by simp [hp], _, bus, rfl⟩
    · rw [State.takeTurn_true_of_running hp inside]
      exact ⟨by simp [hp], _, State.iteration_env_bus _ _, rfl⟩

/-! ### The frequency estimate -/

/-- Settles O20: the measurement of the iteration, at the turn's time. -/
theorem fullWindowMeasuresTheFrequency : Obligations.FullWindowMeasuresTheFrequency := by
  intro s m now rest hp inside hm hinputs
  have effect := (s.takeEvent.observe now).iterationOf_iteration (s.mem.read s.pc)
  rw [← State.takeTurn_true_of_running hp inside] at effect
  have clock : (s.takeTurn true now).env.clock = (s.takeEvent.observe now).env.clock := effect.agents.2.1
  refine ⟨_, step_of_turn_inputs hinputs, s.takeTurn_env_clock true now, fun full => ?_, fun not_full => ?_⟩
  · rw [clock]
    exact effect.window m hm full
  · refine effect.noWindow fun n hn => ?_
    obtain rfl := Option.some.inj (hm.symm.trans hn)
    exact not_full

/-- Short of a full window, the final measurement is over the cycles that did elapse. -/
theorem State.finalFrequency_of_partial {s : State} {m : Mark} (hm : s.mark = some m) (some_cycle : 0 < s.cycles)
    (not_full : s.cycles < s.params.freqWindow) : s.finalFrequency = s.estimate s.cycles m.time := by
  simp [State.finalFrequency, hm, some_cycle, not_full]

/-- With no cycle, or a full window behind it, the exit measures nothing. -/
theorem State.finalFrequency_of_none_or_full {s : State} (h : s.cycles = 0 ∨ s.params.freqWindow ≤ s.cycles) :
    s.finalFrequency = s := by
  unfold State.finalFrequency
  split
  · rfl
  · exact if_neg (by omega)

/-- Settles O42: the exit's estimate, by the number of cycles. -/
theorem exitTakesTheFinalFrequency : Obligations.ExitTakesTheFinalFrequency := by
  intro s m pulse now rest hp requested top hm hinputs
  have exit : s.takeTurn pulse now = (s.takeEvent.observe now).exitLoop := State.takeTurn_of_requested hp requested top
  refine ⟨_, step_of_turn_inputs hinputs, by rw [exit]; rfl, s.takeTurn_env_clock pulse now,
    fun some_cycle not_full elapsed => ?_, fun unmeasured => ?_⟩
  · have partialWindow := State.finalFrequency_of_partial (s := s.takeEvent.observe now) hm some_cycle not_full
    rw [exit, State.exitLoop_env_clock] at elapsed ⊢
    rw [State.exitLoop, partialWindow]
    exact State.estimate_freq elapsed
  · rw [exit, State.exitLoop, State.finalFrequency_of_none_or_full (s := s.takeEvent.observe now) unmeasured]
    rfl

/-- Settles O43. -/
theorem frequencyCallReadsTheEstimate : Obligations.FrequencyCallReadsTheEstimate :=
  fun s => ⟨s.answer (.hz s.freq), rfl, rfl, rfl⟩

/-! ### Everything but the model's own fields -/

theorem State.sameCore.trans {s t u : State} (h : s.sameCore t) (h' : t.sameCore u) : s.sameCore u := by
  unfold State.sameCore at *
  rw [h', h]

theorem State.sameCore_takeEvent (s : State) : s.sameCore s.takeEvent := rfl

/-- Taking a move and reading the clock touch only the model's own fields. -/
theorem State.sameCore_takeEvent_observe (s : State) (now : Time) : s.sameCore (s.takeEvent.observe now) := rfl

/-- A turn of the loop at rest changes and reads nothing (R254, R267, R313). -/
theorem State.takeTurn_of_resting_sameCore {s : State} (h : s.phase = .idle ∨ s.phase = .terminated) (pulse : Bool)
    (now : Time) : s.sameCore (s.takeTurn pulse now) ∧ (s.takeTurn pulse now).env.bus = none := by
  rw [State.takeTurn_of_resting h]
  exact ⟨s.sameCore_takeEvent_observe now, rfl⟩

/-- Settles O60: the step is the agent's move by definition, and a turn at rest is the one whose state the statement gives. -/
theorem stepMakesTheNextMove : Obligations.StepMakesTheNextMove := by
  intro s
  refine ⟨s.sameCore_takeEvent, rfl, fun e rest hinputs => State.nextEvent_of_inputs hinputs, ?_⟩
  cases move : s.nextEvent with
  | turn pulse now =>
    intro resting
    obtain ⟨same, bus⟩ := State.takeTurn_of_resting_sameCore resting pulse now
    exact ⟨_, step_of_turn move, same, bus, s.takeTurn_env_inputs pulse now⟩
  | start | terminate | frequency | port r | alu code a b | memRead addr | memWrite addr v =>
    simp only [step, move, agentMove]

/-! ### Runs of turns -/

/-- What turns with one poll answer at the given times leave of a state. -/
def State.takeTurns (s : State) (pulse : Bool) (times : List Time) : State :=
  times.foldl (fun u now => u.takeTurn pulse now) s

theorem runsTo_zero (s : State) : runsTo 0 s s := rfl

theorem runsTo_succ {k : Nat} {s u t : State} (h : step s = .next u) (rest : runsTo k u t) : runsTo (k + 1) s t :=
  (run_succ h).trans rest

/-- Queued turns run one by one. -/
theorem runsTo_takeTurns (pulse : Bool) (times : List Time) (rest : List Event) (s : State)
    (hinputs : s.env.inputs = times.map (Event.turn pulse) ++ rest) :
    runsTo times.length s (s.takeTurns pulse times) ∧ (s.takeTurns pulse times).env.inputs = rest := by
  induction times generalizing s with
  | nil => exact ⟨runsTo_zero s, hinputs⟩
  | cons now times ih =>
    have queued : (s.takeTurn pulse now).env.inputs = times.map (Event.turn pulse) ++ rest := by
      rw [State.takeTurn_env_inputs, hinputs]
      rfl
    obtain ⟨run, left⟩ := ih (s.takeTurn pulse now) queued
    exact ⟨runsTo_succ (step_of_turn_inputs hinputs) run, left⟩

/-- The loop is in a pulse wait: before a reset read, or within an iteration (R252). -/
def State.inPulseWait (s : State) : Prop :=
  (∃ k, s.phase = .resetting k) ∨ (s.phase = .running ∧ s.inWait = true)

theorem State.inPulseWait.of_sameCore {s t : State} (hs : s.inPulseWait) (h : s.sameCore t) : t.inPulseWait := by
  unfold State.sameCore at h
  rw [h]
  exact hs

/-- A false poll of a pulse wait leaves the CORE as it is (R252). -/
theorem State.takeTurn_false_sameCore {s : State} (hs : s.inPulseWait) (now : Time) :
    s.sameCore (s.takeTurn false now) := by
  rcases hs with ⟨k, hp⟩ | ⟨hp, hw⟩
  · rw [State.takeTurn_false_of_resetting hp]
    exact s.sameCore_takeEvent_observe now
  · rw [State.takeTurn_false_of_running hp (.inr hw), ← hw]
    exact s.sameCore_takeEvent_observe now

theorem State.takeTurns_false_sameCore (times : List Time) {s : State} (hs : s.inPulseWait) :
    s.sameCore (s.takeTurns false times) := by
  induction times generalizing s with
  | nil => rfl
  | cons now times ih =>
    have same := State.takeTurn_false_sameCore hs now
    exact same.trans (ih (hs.of_sameCore same))

/-- Settles O22, by induction on the false polls: each leaves the CORE, and so the wait, as it is. -/
theorem falsePollsStallTheLoop : Obligations.FalsePollsStallTheLoop := by
  intro times rest s waiting hinputs
  obtain ⟨run, left⟩ := runsTo_takeTurns false times rest s hinputs
  exact ⟨_, run, State.takeTurns_false_sameCore times waiting, left⟩

/-- Within a wait a request lets the granted turn make its iteration, and the turn after it exits (R262). -/
theorem runsTo_of_requested_in_wait {s : State} {now later : Time} {pulse : Bool} {rest : List Event}
    (hp : s.phase = .running) (requested : s.term = true) (hw : s.inWait = true)
    (hinputs : s.env.inputs = .turn true now :: .turn pulse later :: rest) :
    runsTo 2 s (((s.takeEvent.observe now).iteration (s.mem.read s.pc)).takeEvent.observe later).exitLoop := by
  have read := step_of_turn_inputs hinputs
  rw [State.takeTurn_true_of_running hp (.inr hw)] at read
  have queued : ((s.takeEvent.observe now).iteration (s.mem.read s.pc)).env.inputs = .turn pulse later :: rest := by
    simp [hinputs]
  have exit := step_of_turn_inputs queued
  rw [State.takeTurn_of_requested (by simpa using hp) (by simpa using requested) (by simp)] at exit
  exact runsTo_succ read (runsTo_succ exit (runsTo_zero _))

/-- Settles O23: the request, then the two turns that follow it. -/
theorem requestDuringWaitEndsAfterTheRead : Obligations.RequestDuringWaitEndsAfterTheRead := by
  intro s now later pulse rest hp hw hinputs
  have terminate : step s = .next { s.takeEvent with term := true } := step_of_inputs hinputs
  exact ⟨_, runsTo_succ terminate (runsTo_of_requested_in_wait hp rfl hw (congrArg List.tail hinputs)), by simp⟩

/-! ### The sequencer's states -/

/-- The steps of R32 from one sequencer state to another: `start()`, a reset read and the exit. -/
theorem StepEffect.phase_cases {s t : State} (h : StepEffect s t) :
    t.phase = s.phase ∨ (s.phase = .idle ∧ t.phase = .resetting .fetch1) ∨
    ((∃ k, s.phase = .resetting k) ∧ ((∃ j, t.phase = .resetting j) ∨ t.phase = .running)) ∨
    (s.phase = .running ∧ t.phase = .terminated) := by
  cases h with
  | start move phase => exact .inr (.inl ⟨phase, rfl⟩)
  | resetRead now k move phase =>
    have stage := (s.takeEvent.observe now).resetRead_phase_mark k
    exact .inr (.inr (.inl ⟨⟨k, phase⟩, stage.imp And.left And.left⟩))
  | exit pulse now move phase requested top => exact .inr (.inr (.inr ⟨phase, rfl⟩))
  | _ => exact .inl (by simp)

/-- Settles O24: the loop is at rest, and no move leads out of Terminated. -/
theorem terminatedIsFinal : Obligations.TerminatedIsFinal := by
  intro s hp
  refine ⟨fun pulse now rest hinputs => ?_, fun t hstep => ?_, frequencyCallReadsTheEstimate s, by simp [State.startBlocks, hp]⟩
  · exact ⟨_, step_of_turn_inputs hinputs, State.takeTurn_of_resting_sameCore (.inr hp) pulse now⟩
  · rcases (stepEffect_of_step hstep).phase_cases with same | ⟨idle, -⟩ | ⟨⟨k, resetting⟩, -⟩ | ⟨running, -⟩
    · exact same.trans hp
    · simp [hp] at idle
    · simp [hp] at resetting
    · simp [hp] at running

/-- A blocked `start()` stays blocked until the end. -/
theorem StepEffect.startBlocks_or_terminated {s t : State} (h : StepEffect s t) (hs : s.startBlocks = true) :
    t.startBlocks = true ∨ t.phase = .terminated := by
  obtain ⟨not_idle, not_terminated⟩ := s.startBlocks_iff.mp hs
  rw [State.startBlocks_iff]
  rcases h.phase_cases with same | ⟨idle, -⟩ | ⟨-, ⟨j, resetting⟩ | running⟩ | ⟨-, terminated⟩
  · exact .inl (same ▸ ⟨not_idle, not_terminated⟩)
  · exact absurd idle not_idle
  · exact .inl (by simp [resetting])
  · exact .inl (by simp [running])
  · exact .inr terminated

theorem hostStart_of_idle {s : State} (h : s.phase = .idle) :
    hostStart s = .next { s with phase := .resetting .fetch1 } := by
  simp [hostStart, h]

/-- Settles O36. -/
theorem hostStartsOnceAndTerminatesAnyTime : Obligations.HostStartsOnceAndTerminatesAnyTime := by
  refine ⟨fun s idle => ⟨by simp [State.startBlocks, idle], _, hostStart_of_idle idle, rfl, rfl⟩,
    fun s t hs hstep => (stepEffect_of_step hstep).startBlocks_or_terminated hs, fun s => hostStart_of_ne_idle,
    fun s => rfl, fun s requested => ?_⟩
  rw [hostTerminate, ← requested]

/-! ### The reset sequence -/

/-- A reset read writes no other field of the CORE than these four (R253). -/
theorem State.resetRead_frame (s : State) (k : ResetRead) :
    s.resetRead k = { s with
      pc := (s.resetRead k).pc
      sp := (s.resetRead k).sp
      phase := (s.resetRead k).phase
      mark := (s.resetRead k).mark
      env := (s.resetRead k).env } := by
  obtain ⟨_, _, _, _, _, _, h⟩ := s.resetRead_eq k
  rw [h]

/-- A stack-page read reads one byte of the stack page, the one SP names when SP holds a value (R256), and otherwise writes SP, the
phase and the draw counter. -/
theorem State.stackRead_at (s : State) (k : ResetRead) :
    ∃ offset d, (∀ v, s.sp = some v → offset = v) ∧
      s.stackRead k = { s.decSP with
        phase := .resetting k
        env := { s.env with
          bus := some { addr := stackAddr offset, data := s.mem.read (stackAddr offset) }
          draws := d } } := by
  unfold State.stackRead
  cases hsp : s.sp with
  | none => exact ⟨Config.freeByte s.env.draws, s.env.draws + 1, by simp, by simp [State.strobe, State.decSP, hsp]⟩
  | some v => exact ⟨v, s.env.draws, by simp, rfl⟩

/-- The rule of R256 for a read in the stack page that leaves SP decremented, or still without a value. -/
theorem stackReadOf_stackAddr {s t : State} {offset data : Byte} (named : ∀ v, s.sp = some v → offset = v)
    (hsp : t.sp = s.sp.map fun v => v - 1) : stackReadOf s t { addr := stackAddr offset, data := data } := by
  constructor
  · intro v hv
    rw [named v hv]
    exact ⟨stackAddr_toNat v, by simp [hsp, hv]⟩
  · intro hv
    have low : offset.toNat < 256 := offset.isLt
    have page := stackAddr_toNat offset
    exact ⟨by simp [page], by simp only [page]; omega, by simp [hsp, hv]⟩

section
variable {s : State} {now : Time} {rest : List Event}

theorem step_of_granted_reset {k : ResetRead} (hinputs : s.env.inputs = .turn true now :: rest)
    (hp : s.phase = .resetting k) : step s = .next ((s.takeEvent.observe now).resetRead k) :=
  (step_of_turn_inputs hinputs).trans (congrArg _ (State.takeTurn_true_of_resetting hp))

/-- Reset reads 3, 4 and 5 have one rule, the next read apart (R256). -/
theorem step_of_granted_stackRead {k j : ResetRead} (hinputs : s.env.inputs = .turn true now :: rest)
    (hp : s.phase = .resetting k) (stack : ∀ u : State, u.resetRead k = u.stackRead j) :
    ∃ t read, step s = .next t ∧ t.env.bus = some read ∧ read.data = s.mem.read read.addr ∧
      t.env.clock = max s.env.clock now ∧
      t = { s with pc := t.pc, sp := t.sp, phase := t.phase, mark := t.mark, env := t.env } ∧
      t.phase = .resetting j ∧ t.pc = s.pc ∧ t.mark = s.mark ∧ stackReadOf s t read := by
  obtain ⟨offset, d, named, left⟩ := (s.takeEvent.observe now).stackRead_at j
  have turn := step_of_granted_reset hinputs hp
  rw [stack, left] at turn
  exact ⟨_, _, turn, rfl, rfl, s.takeEvent.observe_env_clock_eq_max now, rfl, rfl, rfl, rfl, stackReadOf_stackAddr named rfl⟩

end

/-- Settles O37, read by read. -/
theorem resetReadsFollowTheirRules : Obligations.ResetReadsFollowTheirRules := by
  intro s now rest hinputs k hp
  have turn := step_of_granted_reset hinputs hp
  have clock := s.takeEvent.observe_env_clock_eq_max now
  have frame := (s.takeEvent.observe now).resetRead_frame k
  cases k with
  | fetch1 | fetch2 | vectorLow => exact ⟨_, _, turn, rfl, rfl, clock, frame, by simp [State.resetRead]⟩
  | stack1 | stack2 | stack3 => exact step_of_granted_stackRead hinputs hp fun _ => rfl
  | vectorHigh lo =>
    exact ⟨_, _, turn, rfl, rfl, clock, frame, rfl, BitVec.toNat_add s.params.resetVec 1, rfl, rfl, rfl⟩

theorem State.sameCore.exists_env {s t : State} (h : s.sameCore t) : ∃ e, t = { s with env := e } := ⟨t.env, h⟩

/-- `t` is `s` before reset read `k`, with `sp` in SP, but for the model's own fields. -/
def ResetStage (s : State) (k : ResetRead) (sp : Option Byte) (t : State) : Prop :=
  ({ s with phase := .resetting k, sp := sp } : State).sameCore t

section
variable {s t : State} {k j : ResetRead} {sp : Option Byte} (now : Time)

/-- Reset reads 1 and 2 go on to the next read (R255). -/
theorem ResetStage.fetch (h : ResetStage s k sp t)
    (fetch : ∀ u : State, u.resetRead k = { u.strobe u.pc with phase := .resetting j }) :
    ResetStage s j sp (t.takeTurn true now) := by
  obtain ⟨e, rfl⟩ := h.exists_env
  rw [State.takeTurn_true_of_resetting rfl, fetch]
  rfl

/-- Reset reads 3, 4 and 5 decrement SP and go on to the next read (R256). -/
theorem ResetStage.stack (h : ResetStage s k sp t) (stack : ∀ u : State, u.resetRead k = u.stackRead j) :
    ResetStage s j (sp.map fun v => v - 1) (t.takeTurn true now) := by
  obtain ⟨e, rfl⟩ := h.exists_env
  rw [State.takeTurn_true_of_resetting rfl, stack]
  obtain ⟨bus, d, left⟩ := State.stackRead_eq _ j
  rw [left]
  rfl

/-- Reset read 6 gets the vector's low byte (R257). -/
theorem ResetStage.vectorLow (h : ResetStage s .vectorLow sp t) :
    ResetStage s (.vectorHigh (s.mem.read s.params.resetVec)) sp (t.takeTurn true now) := by
  obtain ⟨e, rfl⟩ := h.exists_env
  rw [State.takeTurn_true_of_resetting rfl]
  rfl

/-- Reset read 7 puts the vector in PC and enters Running with the mark set (R257, R258). -/
theorem ResetStage.vectorHigh {lo : Byte} (h : ResetStage s (.vectorHigh lo) sp t) :
    ({ s with
      pc := joinBytes (s.mem.read (s.params.resetVec + 1)) lo
      sp := sp
      phase := .running
      mark := some { time := (t.takeTurn true now).env.clock, cycles := s.cycles } } : State).sameCore
      (t.takeTurn true now) := by
  obtain ⟨e, rfl⟩ := h.exists_env
  rw [State.takeTurn_true_of_resetting rfl]
  rfl

end

/-- Over the three stack-page reads SP goes from s to (s - 3) mod 256 (R256). -/
theorem sp_three_decrements (sp : Option Byte) :
    ((sp.map fun v => v - 1).map fun v => v - 1).map (fun v => v - 1) = sp.map fun v => v - 3 := by
  have three (v : Byte) : v - 1 - 1 - 1 = v - 3 := by bv_omega
  cases sp with
  | none => rfl
  | some v => exact congrArg some (three v)

/-- The whole reset sequence from the values at construction (R259): seven granted turns. -/
theorem takeTurns_of_reset {l : Launch} {s : State} (h : ResetStage (State.construct l) .fetch1 l.spPowerOn s)
    (t1 t2 t3 t4 t5 t6 t7 : Time) :
    (State.afterReset l (s.takeTurns true [t1, t2, t3, t4, t5, t6, t7]).env.clock).sameCore
      (s.takeTurns true [t1, t2, t3, t4, t5, t6, t7]) := by
  have fetched : ResetStage _ .stack1 _ (s.takeTurns true [t1, t2]) :=
    (h.fetch (j := .fetch2) t1 fun _ => rfl).fetch t2 fun _ => rfl
  have lowered : ResetStage _ .vectorLow _ (s.takeTurns true [t1, t2, t3, t4, t5]) :=
    ((fetched.stack (j := .stack2) t3 fun _ => rfl).stack (j := .stack3) t4 fun _ => rfl).stack t5 fun _ => rfl
  rw [sp_three_decrements] at lowered
  exact (lowered.vectorLow t6).vectorHigh t7

/-- Settles O38: `start()`, and then the reset sequence. -/
theorem resetSequenceEndsInTheResetState : Obligations.ResetSequenceEndsInTheResetState := by
  intro l t1 t2 t3 t4 t5 t6 t7 rest hinputs
  have start : step (State.construct l) = .next { (State.construct l).takeEvent with phase := .resetting .fetch1 } :=
    step_of_inputs (s := State.construct l) hinputs
  obtain ⟨run, left⟩ := runsTo_takeTurns true [t1, t2, t3, t4, t5, t6, t7] rest
    { (State.construct l).takeEvent with phase := .resetting .fetch1 } (congrArg List.tail hinputs)
  have entered : ResetStage (State.construct l) .fetch1 l.spPowerOn
      { (State.construct l).takeEvent with phase := .resetting .fetch1 } := rfl
  exact ⟨_, runsTo_succ start run, takeTurns_of_reset entered t1 t2 t3 t4 t5 t6 t7, left⟩

end Sys2Proof.Machine
end

section
/-! PROOFS. Exceptions: the illegal opcode, which raises no event. -/

namespace Sys2Proof.Machine

/-- Settles O16: the rule of the granted turn asks nothing of the byte's legality, so an illegal one is an iteration that stays in
Running and shows None. -/
theorem illegalOpcodeIsAValueNotAnEvent : Obligations.IllegalOpcodeIsAValueNotAnEvent := by
  intro s now rest hp inside hinputs illegal
  have undecoded : decodeByte (s.mem.read s.pc) = none := (decodeByte_eq_none_iff _).mpr illegal
  obtain ⟨invalid, -, -⟩ := decoderSignals_of_decodeByte_eq_none undecoded
  obtain ⟨-, granted, -⟩ := runningTurnFollowsTheIterationRule s true now rest hp hinputs
  obtain ⟨t, turn, iteration, -⟩ := granted inside rfl
  have phase : t.phase = s.phase := iteration.sequencer.1
  exact ⟨undecoded, invalid, t, turn, iteration, phase.trans hp, iteration.decoded.trans (congrArg some undecoded)⟩

end Sys2Proof.Machine
end

section
/-! PROOFS. Reset and hazards: the values after reset, a run of granted pulses, and the reach of the wall clock. -/

namespace Sys2Proof.Machine

/-! ### A run of granted pulses -/

/-- `t` is `s` after `n` Running iterations, with no request seen: the fields they count, and those that they leave (R260). -/
structure IterationsLater (n : Nat) (s t : State) : Prop where
  pc : t.pc = s.pc + BitVec.ofNat 16 n
  cycles : t.cycles = s.cycles + n
  phase : t.phase = .running
  term : t.term = false
  sr : t.sr = s.sr
  mem : t.mem = s.mem

section
variable {n k : Nat} {s t u : State}

theorem IterationsLater.refl (hp : s.phase = .running) (hterm : s.term = false) : IterationsLater 0 s s :=
  ⟨(BitVec.add_zero s.pc).symm, rfl, hp, hterm, rfl, rfl⟩

theorem IterationsLater.trans (h : IterationsLater n s t) (h' : IterationsLater k t u) : IterationsLater (n + k) s u where
  pc := by rw [h'.pc, h.pc, BitVec.ofNat_add, BitVec.add_assoc]
  cycles := by rw [h'.cycles, h.cycles, Nat.add_assoc]
  phase := h'.phase
  term := h'.term
  sr := h'.sr.trans h.sr
  mem := h'.mem.trans h.mem

/-- A granted pulse makes one iteration, whatever byte it fetches (R260, R261). -/
theorem IterationsLater.of_takeTurn (hp : s.phase = .running) (hterm : s.term = false) (now : Time) :
    IterationsLater 1 s (s.takeTurn true now) := by
  rw [State.takeTurn_true_of_running hp (.inl hterm)]
  constructor <;> simp [hp, hterm]

theorem IterationsLater.of_takeTurns (times : List Time) (hp : s.phase = .running) (hterm : s.term = false) :
    IterationsLater times.length s (s.takeTurns true times) := by
  induction times generalizing s with
  | nil => exact .refl hp hterm
  | cons now times ih =>
    have first := IterationsLater.of_takeTurn hp hterm now
    rw [List.length_cons, Nat.add_comm]
    exact first.trans (ih first.phase first.term)

end

/-- Settles O21: the run of the granted turns, and what each of them advances. -/
theorem grantedPulsesAdvanceCyclesAndPC : Obligations.GrantedPulsesAdvanceCyclesAndPC := by
  intro times rest s hp hterm hinputs
  obtain ⟨run, left⟩ := runsTo_takeTurns true times rest s hinputs
  obtain ⟨pc, cycles, phase, term, sr, mem⟩ := IterationsLater.of_takeTurns times hp hterm
  exact ⟨_, run, pc, cycles, phase, term, sr, mem, left⟩

/-! ### The reach of the wall clock -/

/-- The mark's cycle count after a measurement is a function of the count before it: the mark's time plays no part (R264). -/
theorem State.measureWindow_mark_cycles (s : State) :
    s.measureWindow.mark.map Mark.cycles =
      (s.mark.map Mark.cycles).map fun c => if s.cycles = c + s.params.freqWindow then s.cycles else c := by
  cases hm : s.mark with
  | none => simp [State.measureWindow, hm]
  | some m => by_cases full : s.cycles = m.cycles + s.params.freqWindow <;> simp [State.measureWindow, hm, full]

/-- The bus read of a stack-page reset read: the byte that SP names, or a drawn one when SP holds no value (R256). -/
def State.stackPageRead (s : State) : BusRead :=
  { addr := stackAddr (s.sp.getD (Config.freeByte s.env.draws))
    data := s.mem.read (stackAddr (s.sp.getD (Config.freeByte s.env.draws))) }

theorem State.stackRead_eq_stackPageRead (s : State) (k : ResetRead) :
    ∃ d, s.stackRead k =
      { s.decSP with phase := .resetting k, env := { s.env with bus := some s.stackPageRead, draws := d } } := by
  unfold State.stackRead State.stackPageRead
  cases hsp : s.sp with
  | none => exact ⟨s.env.draws + 1, by simp [State.strobe, State.decSP, hsp]⟩
  | some v => exact ⟨s.env.draws, rfl⟩

section
variable {s u : State}

/-- A write of `freq`, of the mark with one cycle count, and of the draw counter, in both states, keeps their agreement. -/
theorem State.sameButTime.measured (h : s.sameButTime u) {f f' : Hz} {m m' : Option Mark} {d d' : Nat}
    (count : m'.map Mark.cycles = m.map Mark.cycles) :
    ({ s with freq := f, mark := m, env := { s.env with draws := d } } : State).sameButTime
      { u with freq := f', mark := m', env := { u.env with draws := d' } } := by
  obtain ⟨_, _, _, rfl, -, bus⟩ := h
  exact ⟨_, _, _, rfl, count, bus⟩

theorem State.sameButTime.measureWindow (h : s.sameButTime u) : s.measureWindow.sameButTime u.measureWindow := by
  have count : u.measureWindow.mark.map Mark.cycles = s.measureWindow.mark.map Mark.cycles := by
    obtain ⟨_, _, _, rfl, marks, -⟩ := h
    rw [State.measureWindow_mark_cycles, State.measureWindow_mark_cycles, marks]
  obtain ⟨f, m, d, left⟩ := s.measureWindow_eq
  obtain ⟨f', m', d', left'⟩ := u.measureWindow_eq
  rw [left, left'] at count ⊢
  exact h.measured count

theorem State.sameButTime.finalFrequency (h : s.sameButTime u) : s.finalFrequency.sameButTime u.finalFrequency := by
  have marks : u.mark.map Mark.cycles = s.mark.map Mark.cycles := by
    obtain ⟨_, _, _, rfl, marks, -⟩ := h
    exact marks
  obtain ⟨f, d, left⟩ := s.finalFrequency_eq
  obtain ⟨f', d', left'⟩ := u.finalFrequency_eq
  rw [left, left']
  exact h.measured marks

theorem State.sameButTime.exitLoop (h : s.sameButTime u) : s.exitLoop.sameButTime u.exitLoop := by
  obtain ⟨_, _, _, left, marks, bus⟩ := h.finalFrequency
  rw [State.exitLoop, State.exitLoop, left]
  exact ⟨_, _, _, rfl, marks, bus⟩

theorem State.sameButTime.iteration (h : s.sameButTime u) (op : Byte) :
    (s.iteration op).sameButTime (u.iteration op) := by
  have fetched : (s.fetchByte op).sameButTime (u.fetchByte op) := by
    obtain ⟨_, _, _, rfl, marks, -⟩ := h
    exact ⟨_, _, _, rfl, marks, rfl⟩
  exact fetched.measureWindow

theorem State.sameButTime.stackRead (h : s.sameButTime u) (draws : u.env.draws = s.env.draws) (k : ResetRead) :
    (s.stackRead k).sameButTime (u.stackRead k) := by
  have read : u.stackPageRead = s.stackPageRead := by
    rw [State.stackPageRead, draws]
    obtain ⟨_, _, _, rfl, -, -⟩ := h
    rfl
  obtain ⟨d, left⟩ := s.stackRead_eq_stackPageRead k
  obtain ⟨d', left'⟩ := u.stackRead_eq_stackPageRead k
  rw [left, left', read]
  obtain ⟨_, _, _, rfl, marks, -⟩ := h
  exact ⟨_, _, _, rfl, marks, rfl⟩

theorem State.sameButTime.resetRead (h : s.sameButTime u) (draws : u.env.draws = s.env.draws) (k : ResetRead) :
    (s.resetRead k).sameButTime (u.resetRead k) := by
  cases k with
  | stack1 | stack2 | stack3 => exact h.stackRead draws _
  | fetch1 | fetch2 | vectorLow =>
    obtain ⟨_, _, _, rfl, marks, -⟩ := h
    exact ⟨_, _, _, rfl, marks, rfl⟩
  | vectorHigh lo =>
    obtain ⟨_, _, _, rfl, -, -⟩ := h
    exact ⟨_, _, _, rfl, rfl, rfl⟩

/-- The way that the loop's turn takes does not depend on the time, and each way keeps the agreement. -/
theorem State.sameButTime.afterTurn (h : s.sameButTime u) (draws : u.env.draws = s.env.draws) (pulse : Bool) :
    (s.afterTurn pulse).sameButTime (u.afterTurn pulse) := by
  have way : u.phase = s.phase ∧ (u.term && !u.inWait) = (s.term && !s.inWait) ∧ u.mem.read u.pc = s.mem.read s.pc := by
    obtain ⟨_, _, _, rfl, -, -⟩ := h
    exact ⟨rfl, rfl, rfl⟩
  obtain ⟨phase, check, byte⟩ := way
  unfold State.afterTurn
  rw [phase, check, byte]
  cases s.phase with
  | idle | terminated => exact h
  | resetting k =>
    cases pulse with
    | false => exact h
    | true => exact h.resetRead draws k
  | running =>
    cases s.term && !s.inWait with
    | true => exact h.exitLoop
    | false =>
      cases pulse with
      | true => exact h.iteration _
      | false =>
        obtain ⟨_, _, _, rfl, marks, bus⟩ := h
        exact ⟨_, _, _, rfl, marks, bus⟩

/-- Taking a move and reading the clock touch no field that the two states must share but the bus, which they clear. -/
theorem State.sameButTime.takeEvent_observe (h : s.sameButTime u) (now later : Time) :
    (s.takeEvent.observe now).sameButTime (u.takeEvent.observe later) := by
  obtain ⟨_, _, _, rfl, marks, -⟩ := h
  exact ⟨_, _, _, rfl, marks, rfl⟩

end

/-- Settles O33: neither reading of the clock reaches past `freq`, the mark's time and the model's own fields. -/
theorem wallClockReachesOnlyTheFrequency : Obligations.WallClockReachesOnlyTheFrequency := by
  intro s u pulse now later rest rest' same draws hs hu
  have taken : (u.takeEvent.observe later).env.draws = (s.takeEvent.observe now).env.draws := by simp [hs, hu, draws]
  exact ⟨_, _, step_of_turn_inputs hs, step_of_turn_inputs hu, (same.takeEvent_observe now later).afterTurn taken pulse⟩

/-! ### The values after reset -/

/-- A register that holds a value answers it on the port (R31). -/
theorem State.registersHoldValues.read {s : State} (h : s.registersHoldValues) (r : Reg8) :
    ∃ v t, s.reg r = some v ∧ portMove (.readReg r) s = .next t ∧ t.env.reply = some (.byte v) := by
  obtain ⟨v, hv⟩ := Option.isSome_iff_exists.mp (h r)
  exact ⟨v, _, hv, portMove_readReg_of_some hv, rfl⟩

/-- Settles O41: the column "after reset" field by field, the three port writes that lead to `State.reset`, and its registers. -/
theorem resetLeavesTheStatedValues : Obligations.ResetLeavesTheStatedValues := by
  refine ⟨fun l now => ?_, ⟨_, _, rfl, rfl, rfl⟩, State.reset_registersHoldValues.read⟩
  exact ⟨rfl, rfl, rfl, rfl, rfl, (State.afterReset_registersUnwritten l now).flags, rfl, rfl, rfl, rfl, rfl, rfl, rfl, rfl,
    rfl, rfl, fun _ => rfl⟩

end Sys2Proof.Machine
end

section
/-! PROOFS. The encoder and the decoder are inverses of each other, and the field form computes the opcode map. -/

namespace Sys2Proof

/-! ### The two round trips -/

theorem encode_illegal_eq_some_iff {op byte : Byte} :
    encode (.illegal op) = some byte ↔ isIllegalOpcode op = true ∧ op = byte := by
  simp [encode]

/-- Every instruction but an illegal opcode has a mnemonic and a mode. -/
theorem Instr.eq_illegal_of_form_eq_none {i : Instr} (h : i.form = none) : ∃ op, i = .illegal op := by
  cases i with
  | illegal op => exact ⟨op, rfl⟩
  | _ => exact absurd h (Option.some_ne_none _)

/-- The encoder's byte is decoded to the instruction: an illegal one is no cell of the opcode map, and the byte of any other stands
in the operand list of its mnemonic. -/
theorem decodeInstr_of_encode {i : Instr} {op : Byte} (h : encode i = some op) : decodeInstr op = i := by
  cases hform : i.form with
  | none =>
    obtain ⟨byte, rfl⟩ := Instr.eq_illegal_of_form_eq_none hform
    obtain ⟨illegal, rfl⟩ := encode_illegal_eq_some_iff.mp h
    exact decodeInstr_of_illegal ((decodeByte_eq_none_iff byte).mpr illegal)
  | some form =>
    obtain ⟨k, m⟩ := form
    have listed : (m, op) ∈ k.forms := mem_forms_of_opcodeOf ((encode_of_form hform).symm.trans h)
    rw [decodeInstr_of_decodeByte (decodeByte_eq_some_iff.mpr listed), Instr.ofForm_form i k m hform]

/-- The decoder reads one byte, whatever follows (R91). -/
theorem decode_cons (op : Byte) (rest : List Byte) : decode (op :: rest) = some (decodeInstr op, rest) := rfl

end Sys2Proof

namespace Sys2Proof.Machine

theorem decodeInstr_wellFormed (op : Byte) : (decodeInstr op).wellFormed = true := by
  rw [← encode_isSome_eq_wellFormed, encode_decodeInstr, Option.isSome_some]

/-- Settles O1: a row of the table has a byte, which decodes back; a term that is none has no byte. -/
theorem decodeOfEncodeIsTheInstruction : Obligations.DecodeOfEncodeIsTheInstruction := by
  intro i
  rw [← encode_isSome_eq_wellFormed]
  refine ⟨fun encoded => ?_, fun unencoded => Option.not_isSome_iff_eq_none.mp (Bool.eq_false_iff.mp unencoded)⟩
  obtain ⟨op, hop⟩ := Option.isSome_iff_exists.mp encoded
  exact ⟨op, hop, fun rest => by rw [decode_cons, decodeInstr_of_encode hop]⟩

/-- Settles O2. -/
theorem encodeOfDecodeIsTheOpcode : Obligations.EncodeOfDecodeIsTheOpcode :=
  fun op => ⟨decodeInstr_wellFormed op, encode_decodeInstr op⟩

/-! ### The field form -/

/-- The numbers of the three fields are the digits of the byte in bases 8 and 4. -/
theorem toNat_fields (op : Byte) :
    (fieldA op).toNat = op.toNat / 32 % 8 ∧ (fieldB op).toNat = op.toNat / 4 % 8 ∧ (fieldC op).toNat = op.toNat % 4 := by
  simp [fieldA, fieldB, fieldC, Nat.shiftRight_eq_div_pow]

theorem toNat_eq_of_fields (op : Byte) :
    op.toNat = (fieldA op).toNat * 32 + (fieldB op).toNat * 4 + (fieldC op).toNat := by
  obtain ⟨a, b, c⟩ := toNat_fields op
  have := op.isLt
  omega

/-- Settles O5: the byte is its fields put together, and each half of the field form is that of the opcode map. -/
theorem fieldFormComputesTheOpcodeMap : Obligations.FieldFormComputesTheOpcodeMap :=
  fun op => ⟨toNat_eq_of_fields op, fieldAddressing_eq_decodeAddressing op, fieldInstruction_eq_decodeInstruction op⟩

/-- Settles O7, each word by its cell of the opcode map. -/
theorem wordsOfTheSpecDecode : Obligations.WordsOfTheSpecDecode :=
  ⟨rfl, rfl, rfl, rfl, rfl, rfl, rfl, rfl, rfl⟩

end Sys2Proof.Machine
end

section
/-! PROOFS. The instruction that a granted turn runs, and the invariant of the machine where a run begins. -/

namespace Sys2Proof.Machine

/-! ### The instruction of a granted turn -/

/-- Settles O17: a granted turn is the iteration that fetches the byte at PC, and so is `exec` of what the byte decodes to. -/
theorem stepRunsTheDecodedInstruction : Obligations.StepRunsTheDecodedInstruction := by
  intro s i now rest hp inside hinputs hdecode
  obtain rfl : decodeInstr (s.mem.read s.pc) = i := by simpa [decode_cons] using hdecode
  refine ⟨decodeInstr_wellFormed _, ?_⟩
  rw [step_of_turn_inputs hinputs, State.takeTurn_true_of_running hp inside, exec_decodeInstr]

/-! ### The invariant at the start -/

section
variable {l : Launch}

/-- At construction the loop has not been entered, and nothing is measured (R42). -/
theorem State.construct_inv (hmem : l.mem0.wf = true) (hwindow : 0 < l.params.freqWindow) : (State.construct l).Inv where
  mem := hmem
  window := hwindow
  measured := ⟨rfl, rfl, rfl, rfl⟩
  wait := nofun
  requested := nofun
  unmeasured := nofun

/-- Reset enters Running with the mark at cycle 0 (R258, R330). -/
theorem State.afterReset_inv (hmem : l.mem0.wf = true) (hwindow : 0 < l.params.freqWindow) (now : Time) :
    (State.afterReset l now).Inv where
  mem := hmem
  window := hwindow
  measured := (State.measured_iff_markFits (.inl rfl)).mpr
    ⟨_, rfl, Nat.dvd_zero _, le_rfl, Nat.lt_add_of_pos_right hwindow, le_rfl, iff_of_true rfl rfl⟩
  wait := nofun
  requested := nofun
  unmeasured := fun _ _ => rfl

end

/-- `State.reset` is reset's state after three port writes, which keep the invariant. -/
theorem State.reset_inv : State.reset.Inv := by
  have reset : (State.afterReset Launch.ofReset 0).Inv := State.afterReset_inv rfl (by decide) 0
  exact ((reset.setReg .a 0).setReg .x 0).setReg .y 0

/-- Settles O35. -/
theorem constructionAndResetHaveTheInvariant : Obligations.ConstructionAndResetHaveTheInvariant :=
  ⟨fun _ => State.construct_inv, fun _ now hmem hwindow => State.afterReset_inv hmem hwindow now, State.reset_inv⟩

end Sys2Proof.Machine
end

section
/-! PROOFS. Decimal add and subtract, digit by digit. -/

namespace Sys2Proof.Machine

section
variable (a b : Byte) (c : Bool)

/-- The decimal sum by columns: the tens, and the ones with the carry-in. -/
theorem decimalSum_eq_columns :
    decimalValue a + decimalValue b + c.toNat =
      10 * (a.toNat / 16 + b.toNat / 16) + (a.toNat % 16 + b.toNat % 16 + c.toNat) := by
  simp only [decimalValue]
  omega

/-- The decimal difference by columns: the tens, and the ones with the borrow-in. -/
theorem decimalDifference_eq_columns :
    (decimalValue a - decimalValue b - (1 - c.toNat) : Int) =
      10 * ((a.toNat / 16 : Nat) - (b.toNat / 16 : Nat)) +
        ((a.toNat % 16 : Nat) - (b.toNat % 16 : Nat) - (1 - c.toNat)) := by
  simp only [decimalValue]
  omega

end

/-- The two digits of a number whose columns are `h` tens and `l` ones, of whatever sizes and signs: the column of ones leaves the low
digit, and the column of tens, with what the ones carry or borrow, leaves the high one. -/
theorem packedDigits_of_columns (h l : Int) :
    16 * ((10 * h + l) % 100 / 10) + (10 * h + l) % 100 % 10 = 16 * ((h + l / 10) % 10) + l % 10 := by
  have low : (10 * h + l) % 100 % 10 = l % 10 := by omega
  have high : (10 * h + l) % 100 / 10 = (h + l / 10) % 10 := by omega
  rw [low, high]

theorem packedDigits_of_natural_columns (h l : Nat) :
    16 * ((10 * h + l) % 100 / 10) + (10 * h + l) % 100 % 10 = 16 * ((h + l / 10) % 10) + l % 10 := by
  exact_mod_cast packedDigits_of_columns h l

/-- A carry leaves the two digits when one leaves the column of tens. -/
theorem carry_iff_of_columns (h l : Nat) : 99 < 10 * h + l ↔ 10 ≤ h + l / 10 := by omega

/-- No borrow leaves the two digits when none leaves the column of tens. -/
theorem no_borrow_iff_of_columns (h l : Int) : 0 ≤ 10 * h + l ↔ 0 ≤ h + l / 10 := by omega

/-- Settles O46: the sum and the difference are numbers given by their columns. -/
theorem digitByDigitFormsAgree : Obligations.DigitByDigitFormsAgree := by
  intro a b s hd
  obtain ⟨sum, carry⟩ := aluAdd_of_decimal a b hd
  obtain ⟨difference, noBorrow⟩ := aluSubtract_of_decimal a b hd
  rw [decimalSum_eq_columns] at sum carry
  rw [decimalDifference_eq_columns] at difference noBorrow
  exact ⟨⟨sum.trans (packedDigits_of_natural_columns _ _), carry.trans (carry_iff_of_columns _ _)⟩,
    difference.trans (packedDigits_of_columns _ _), noBorrow.trans (no_borrow_iff_of_columns _ _)⟩

end Sys2Proof.Machine
end
